-- ==== Sys2Proof/Word.lean ====
section
/-! DEFINITION. The word types of the part and the numbers that name its copies of each block. -/

namespace Sys2Proof

/-- A byte of a bus transaction, of a record or of a picture line. -/
abbrev Byte := BitVec 8
/-- A tick value: 40 bits, wrapping (R1, R46). -/
abbrev Tick := BitVec 40
/-- A smoothed stamp: 48 bits in 1/256-tick units, wrapping (R1). -/
abbrev Stamp := BitVec 48
/-- A byte address (00, Addresses). -/
abbrev Addr := BitVec 40
/-- A 4 KiB page number (00, Addresses). -/
abbrev Page := BitVec 28
/-- A sample number or an output sample number: 32 bits, wrapping (R10, R81). -/
abbrev SampleNo := BitVec 32
/-- A 32-bit word of a command cell (R165). -/
abbrev Word := BitVec 32
/-- A condition word or mask: 16 bits (11, Shared codes). -/
abbrev Conds := BitVec 16

/-- Feeds 0 to 3. -/
abbrev FeedId := Fin 4
/-- Outputs 0 to 3. -/
abbrev OutId := Fin 4
/-- Command cells 0 to 15 (R165). -/
abbrev CellId := Fin 16
/-- Coefficient banks 0 and 1 (R93). -/
abbrev BankId := Fin 2
/-- Frame slots 0 to 7 (R12). -/
abbrev SlotId := Fin 8
/-- Line Cache entries 0 to 63 (R121). -/
abbrev EntryId := Fin 64

end Sys2Proof
end

