-- ==== Sys2Proof/Syntax.lean ====
section
/-! DEFINITION. The commands and events that the part takes: one constructor of `Instr` per row of
spec/opcode_table.json, with the operands that the outside world brings to it. -/

namespace Sys2Proof

/-- The two house references (R47). -/
inductive Ref where
  | refA
  | refB
  deriving DecidableEq, Repr

/-- AXI burst types (00, Abbreviations). -/
inductive BurstKind where
  | fixed
  | incr
  | wrap
  deriving DecidableEq, Repr

/-- AXI response codes (R150). -/
inductive Resp where
  | okay
  | exokay
  | slverr
  | decerr
  deriving DecidableEq, Repr

/-- A burst as a master presents it at the Bus Port (R150). A write carries its data beats: `data` is
the bytes of its beats in order and `strobes` the write strobe of each (log entry 6). -/
structure Burst where
  write : Bool
  id : BitVec 8
  addr : Addr
  kind : BurstKind
  /-- The beats are 2^size bytes, at most 64 (R149). -/
  size : Fin 7
  /-- Length in beats. -/
  len : Nat
  lock : Bool
  cache : BitVec 4
  prot : BitVec 3
  data : List Byte
  strobes : List Bool
  deriving DecidableEq, Repr

/-- One beat of a read response. -/
structure ReadBeat where
  resp : Resp
  data : List Byte
  deriving DecidableEq, Repr

/-- A whole-cell write of one command (R165, R203): the write's ID, the cell, and the eight words. The
command code in byte 0 of word 0 is the row's own. -/
structure CellWrite where
  id : BitVec 8
  cell : CellId
  target : Byte
  tag : Byte
  /-- Byte 3 of word 0, which is not read (R203). -/
  spare : Byte
  w1 : Word
  w2 : Word
  w3 : Word
  w4 : Word
  w5 : Word
  w6 : Word
  w7 : Word
  deriving DecidableEq, Repr

/-- A response of the DRAM controller at the Memory Port: its ID (R150) and what it brings. A read
response comes with all its beats (log entry 12). -/
inductive Reply where
  | write (id : BitVec 9) (resp : Resp)
  | read (id : BitVec 9) (beats : List ReadBeat)
  deriving DecidableEq, Repr

/-- The rows of spec/opcode_table.json. -/
inductive Instr where
  | configureFeed (w : CellWrite)
  | enableFeed (w : CellWrite)
  | disableFeed (w : CellWrite)
  | rearmMonitor (w : CellWrite)
  | configureOutput (w : CellWrite)
  | startOutput (w : CellWrite)
  | stopOutput (w : CellWrite)
  | setResponse (w : CellWrite)
  | setSlate (w : CellWrite)
  | forceMode (w : CellWrite)
  | releaseMode (w : CellWrite)
  | loadCoefficients (w : CellWrite)
  | clearConditions (w : CellWrite)
  | setMasks (w : CellWrite)
  | identify (w : CellWrite)
  | deviceClear (w : CellWrite)
  | unknownCommand (code : Byte) (w : CellWrite)
  | malformedCommandWrite (b : Burst)
  | commandOverrun (b : Burst)
  | controlBlockWrite (b : Burst)
  | passthrough (b : Burst)
  | slateRegionWrite (b : Burst)
  | ingestWrite (b : Burst)
  | ingestRead (b : Burst)
  | outputRead (b : Burst)
  | refusedBurst (b : Burst)
  | outputWindowWrite (b : Burst)
  | ingestWriteResponse (id : BitVec 8) (resp : Resp)
  | forwardedResponse (r : Reply)
  | slotRegionWriteResponse (id : BitVec 8) (resp : Resp)
  | slateWriteResponse (id : BitVec 8) (resp : Resp)
  | memoryPortGrant
  | statusRecordWriteResponse (resp : Resp)
  | resultWordResponse (resp : Resp)
  | coefficientLoadCompletion (beats : List ReadBeat)
  | lineFillResponse (o : OutId) (beats : List ReadBeat)
  | slateReadResponse (o : OutId) (beats : List ReadBeat)
  | lineBuildCompletion (o : OutId)
  | referencePulse (r : Ref)
  | referenceAbsent (r : Ref)
  | underflow (o : OutId)
  | lossTimerExpiry (f : FeedId)
  | powerUp
  | resetLine
  | resetRelease (straps : BitVec 10)
  | tick
  deriving DecidableEq, Repr

end Sys2Proof
end

