-- ==== Sys2Proof/Config.lean ====
section
/-! DEFINITION. What the manual fixes once for the part: sizes, limits and codes. It leaves no value
to the implementation, so no constant here is left without a body. -/

namespace Sys2Proof.Config

/-- The part code of the device record (R196). -/
def partCode : BitVec 16 := 0x4C40
/-- The revision of the parts that the manual describes (R196). -/
def revision : Byte := 1
/-- Bursts that the Bus Port holds of each kind, reads and writes (R157). -/
def busLimit : Nat := 32
/-- Bursts that a read queue holds (R108). -/
def queueLimit : Nat := 16
/-- Bursts granted and not yet answered (R161). -/
def grantLimit : Nat := 64
/-- Counters that saturate stop here (R15, R22, R43, R72, R80, R107). -/
def saturation : Nat := 65535
/-- The run counts stop here (R37). -/
def runLimit : Nat := 15
/-- The hold limit after power-up and CONFIGURE_OUTPUT (R128, R130). -/
def holdLimit : Nat := 50
/-- The control block: 8 KiB from the control base (R199). -/
def controlPages : Nat := 2
/-- Offsets within the control block (R201). -/
def feedRecords : Nat := 0x040
def outputRecords : Nat := 0x140
def cells : Nat := 0x400
def traceRings : Nat := 0x1000
/-- The absence intervals of REFA and REFB (R47). -/
def absenceA : Nat := 2160000
def absenceB : Nat := 1801800

end Sys2Proof.Config
end

