-- ==== Sys2Proof/Machine/State.lean ====
section
/-! DEFINITION. The state of the part as plain data: every piece of state the manual gives each block,
the commands that wait, and the machine right after reset. -/

namespace Sys2Proof.Machine

/-! ## Shared quantities (11, Shared codes) -/

/-- The rate codes of R3. -/
inductive RateCode where
  | p2398 | p24 | p25 | p2997 | p30 | p50 | p5994 | p60 | i50 | i5994 | i60
  deriving DecidableEq, Repr

/-- Field order of an interlaced rate code (R4, R50). -/
inductive FieldOrder where
  | tff
  | bff
  deriving DecidableEq, Repr

/-- The parity of a sample: NONE for a progressive sample, 0 for the top and 1 for the bottom field. -/
inductive Parity where
  | whole
  | top
  | bottom
  deriving DecidableEq, Repr

/-! ## Feeds (01, 02) -/

/-- The configuration that CONFIGURE_FEED writes: R4 with the cadence configuration of R27. The field
order is present for an interlaced rate code alone. -/
structure FeedConfig where
  width : Nat
  lines : Nat
  rate : RateCode
  order : Option FieldOrder
  slots : Nat
  stride : Nat
  slotPage : Page
  windowPage : Page
  lockCount : Nat
  tolShift : Nat
  lossPeriods : Nat
  threshold : Nat
  deriving DecidableEq, Repr

/-- The ingest phase (R6). -/
inductive Phase where
  | idle
  | awaiting
  | capturing
  | discarding
  deriving DecidableEq, Repr

/-- The status of a sample record (R17, R21, R22). -/
inductive RecordStatus where
  | filling
  | complete
  | partial_
  deriving DecidableEq, Repr

/-- A sample record (R17). `lineMap` lists the lines flagged done, each once. -/
structure SampleRecord where
  number : SampleNo
  slot : SlotId
  parity : Parity
  stamp : Stamp
  status : RecordStatus
  lineMap : List Nat
  linesDone : Nat
  pins : Nat
  deriving DecidableEq, Repr

/-- The feed state (R27). -/
inductive FeedState where
  | disabled
  | seeking
  | locked
  | lost
  deriving DecidableEq, Repr

/-- The Cadence Tracker (R27). `period` is E; a stopped loss timer is `none`. -/
structure Cadence where
  state : FeedState
  seedPending : Bool
  period : Nat
  lastRaw : Tick
  lastSmoothed : Stamp
  regularRun : Nat
  irregularRun : Nat
  lossTimer : Option Nat
  irregularLeft : Nat
  irregularCount : Nat
  deriving DecidableEq, Repr

/-- One feed: Ingest Tracker, Cadence Tracker, and the Command Unit's word, mask and update count for
it. `config` is absent while the configured mark is clear (R4). -/
structure Feed where
  config : Option FeedConfig
  phase : Phase
  generations : Vector Byte 8
  current : Option SlotId
  mostRecent : Option SlotId
  history : List SampleRecord
  sampleCounter : SampleNo
  lastSample : Option SampleNo
  discards : Nat
  partials : Nat
  cadence : Cadence
  word : Conds
  mask : Conds
  updates : BitVec 16
  deriving DecidableEq, Repr

/-! ## Outputs (03 to 07) -/

/-- The output state (R51). -/
inductive OutputState where
  | unconfigured
  | stopped
  | starting
  | running
  deriving DecidableEq, Repr

/-- Temporal mode (R71). -/
inductive Temporal where
  | blend
  | nearest
  deriving DecidableEq, Repr

/-- Clip mode (R101). -/
inductive Clip where
  | narrow
  | full
  deriving DecidableEq, Repr

/-- The configuration that CONFIGURE_OUTPUT writes (R176), but for the fill colour of R128. -/
structure OutputConfig where
  feed : FeedId
  width : Nat
  lines : Nat
  rate : RateCode
  order : Option FieldOrder
  ref : Ref
  stride : Nat
  windowPage : Page
  delay : Nat
  temporal : Temporal
  clip : Clip
  bank : BankId
  deriving DecidableEq, Repr

/-- A pulse generator (R52): COUNTING or IDLE, the remaining count r, the next-field parity. -/
structure Generator where
  counting : Bool
  left : Nat
  next : Parity
  deriving DecidableEq, Repr

/-- Output modes (R128). An absent mode stands for NO_CHANGE in a response table. -/
inductive Mode where
  | convert
  | freeze
  | fill
  deriving DecidableEq, Repr

/-- Injection modes (R128). -/
inductive Injection where
  | none_
  | oneShot
  | periodic
  | continuous
  deriving DecidableEq, Repr

/-- A Y, Cb, Cr value (R128). -/
structure Colour where
  y : Nat
  cb : Nat
  cr : Nat
  deriving DecidableEq, Repr

/-- The response table (R128): `none` is NO_CHANGE. -/
structure ResponseTable where
  locked : Option Mode
  seeking : Option Mode
  lost : Option Mode
  holdExpired : Option Mode
  deriving DecidableEq, Repr

/-- The mode machinery (R128). `counting` is the one-shot phase COUNTING. -/
structure Modes where
  mode : Mode
  manual : Bool
  pending : Option Mode
  table : ResponseTable
  holdLimit : Nat
  holdCount : Nat
  expired : Bool
  fill : Colour
  slatePage : Option Page
  injection : Injection
  counting : Bool
  injectN : Nat
  injectLeft : Nat
  deriving DecidableEq, Repr

/-- Context kinds (R61). -/
inductive Kind where
  | convert
  | freeze
  | fill
  | slate
  | empty
  deriving DecidableEq, Repr

/-- Context flags (R61). -/
structure Flags where
  underrun : Bool
  excess : Bool
  gap : Bool
  nearest : Bool
  deriving DecidableEq, Repr

/-- What a context keeps of a record it names: the feed, and the fields that the record never changes
(R17; log entry 23). -/
structure RecordRef where
  feed : FeedId
  number : SampleNo
  slot : SlotId
  parity : Parity
  stamp : Stamp
  deriving DecidableEq, Repr

/-- A context (R61). -/
structure Context where
  id : BitVec 16
  kind : Kind
  a : Option RecordRef
  b : Option RecordRef
  weight : Nat
  flags : Flags
  parity : Parity
  number : SampleNo
  latchTick : Tick
  clips : Nat
  uses : Nat
  deriving DecidableEq, Repr

/-- The frame decision (R62, R63). -/
structure FrameDecision where
  mode : Mode
  slate : Bool
  deriving DecidableEq, Repr

/-- The context state (R62). -/
structure Contexts where
  heldWhole : Option Context
  heldTop : Option Context
  heldBottom : Option Context
  frozen : Option Context
  retired : Option Context
  decision : Option FrameDecision
  nextId : BitVec 16
  counter : SampleNo
  underruns : Nat
  traceIndex : Nat
  deriving DecidableEq, Repr

/-- What the output status record keeps of the last latch and of the builds (R80, R107, R198). -/
structure Report where
  latchTick : BitVec 32
  kind : Kind
  weight : Nat
  flags : Flags
  lastClip : Nat
  fetchErrors : Nat
  deriving DecidableEq, Repr

/-- A read burst in an output's read queue (R108): its Bus Port transaction, the window offset of its
first byte, its shape, and how many of its beats have been answered. -/
structure QueuedRead where
  serial : Nat
  offset : Nat
  size : Fin 7
  len : Nat
  done : Nat
  deriving DecidableEq, Repr

/-- One slate read of a run (R111): window offset and length of its bytes, and its answer: not yet,
an error, or the bytes. -/
structure SlateRead where
  offset : Nat
  len : Nat
  answer : Option (Option (List Byte))
  deriving DecidableEq, Repr

/-- The run of beats in flight at the slate region (R111): how many beats of the head burst, the window
offset of their line, the end of its picture bytes, and the reads. -/
structure SlateRun where
  beats : Nat
  lineStart : Nat
  pictureEnd : Nat
  reads : List SlateRead
  deriving DecidableEq, Repr

/-- Output line buffer states (R112). -/
inductive BufferState where
  | empty
  | building
  | ready
  deriving DecidableEq, Repr

/-- An output line buffer (R112). -/
structure LineBuffer where
  state : BufferState
  line : Option Nat
  context : Option (BitVec 16)
  stale : Bool
  bytes : List Byte
  deriving DecidableEq, Repr

/-- A Line Cache key (R121). -/
structure CacheKey where
  feed : FeedId
  slot : SlotId
  generation : Byte
  line : Nat
  deriving DecidableEq, Repr

/-- One phase of a coefficient table (R93). -/
structure Coefs where
  c0 : Int
  c1 : Int
  c2 : Int
  c3 : Int
  deriving DecidableEq, Repr

/-- The 32 phases of a coefficient bank (R93). -/
abbrev CoefTable := Vector Coefs 32

/-- A source record as a build fixes it (R86). -/
structure FixedRecord where
  feed : FeedId
  number : SampleNo
  slot : SlotId
  generation : Byte
  parity : Parity
  deriving DecidableEq, Repr

/-- A line build in progress: its line, its context's id, the parity that this context was held for, and its
buffer (R115), the values it fixed at its start (R86), and the Line Cache entries it holds. -/
structure Build where
  line : Nat
  context : BitVec 16
  parity : Parity
  buffer : Fin 2
  a : FixedRecord
  b : FixedRecord
  weight : Nat
  sourceLines : Nat
  slotPage : Page
  slotSize : Nat
  sourceStride : Nat
  outLines : Nat
  width : Nat
  clip : Clip
  fill : Colour
  table : CoefTable
  holds : List (CacheKey × EntryId)
  deriving DecidableEq, Repr

/-- The Line Builder of one output (R108, R111, R112, R115). -/
structure LineBuilder where
  queue : List QueuedRead
  run : Option SlateRun
  buffers : Vector LineBuffer 2
  lastTouched : Option (Fin 2)
  build : Option Build
  deriving DecidableEq, Repr

/-- One output: Phase Unit, pulse generator, Line Builder, and the Command Unit's word, mask and update
count for it. `config` is absent in UNCONFIGURED. -/
structure Output where
  state : OutputState
  config : Option OutputConfig
  gen : Generator
  modes : Modes
  ctx : Contexts
  report : Report
  builder : LineBuilder
  word : Conds
  mask : Conds
  updates : BitVec 16
  deriving DecidableEq, Repr

/-! ## Line Cache (06) -/

/-- Line Cache entry states (R121). -/
inductive EntryState where
  | free
  | fetching
  | valid
  | faulted
  deriving DecidableEq, Repr

/-- A Line Cache entry (R121), with the bursts of its fill not yet answered and whether one of them
returned an error (R124). -/
structure CacheEntry where
  key : Option CacheKey
  state : EntryState
  uses : Nat
  drop : Bool
  bytes : List Byte
  owner : Option OutId
  left : Nat
  bad : Bool
  deriving DecidableEq, Repr

/-- The Line Cache (R121): its entries and the last-use order, least recently used first. -/
structure Cache where
  entries : Vector CacheEntry 64
  order : List EntryId
  deriving DecidableEq, Repr

/-! ## Command Unit (05, 09, 10) -/

/-- A coefficient bank (R93). It is LOADING while it names the cell whose load it serves. -/
structure Bank where
  table : CoefTable
  loading : Option CellId
  deriving DecidableEq, Repr

/-- Result codes (R202). -/
inductive ResultCode where
  | done | wrongState | badField | overlap | geometry | inUse | coefInvalid | fetchFailed | aborted
  | unknown
  deriving DecidableEq, Repr

/-- Where the result word of an ACTIVE cell stands (R170). -/
inductive ResultStage where
  | unrequested
  | waiting
  | granted
  deriving DecidableEq, Repr

/-- Where an IDENTIFY stands (R186): not one, waiting for a grant of the device record, or waiting for
that grant's response. -/
inductive IdentifyStage where
  | no
  | waiting
  | granted
  deriving DecidableEq, Repr

/-- The command of an ACTIVE cell: its tag, its settled result code and detail, whether the host's own
write has been answered (R170), and whether an ABORTED word follows a granted one (R187). -/
structure ActiveCommand where
  tag : Byte
  settled : Option (ResultCode × Byte)
  hostAnswered : Bool
  stage : ResultStage
  identify : IdentifyStage
  abortDue : Bool
  deriving DecidableEq, Repr

/-- A command cell (R168): IDLE is `none`. -/
abbrev Cell := Option ActiveCommand

/-- The nine status records (R195). -/
inductive RecordSel where
  | device
  | feed (f : FeedId)
  | output (o : OutId)
  deriving DecidableEq, Repr

/-- Reset causes (R200). -/
inductive ResetCause where
  | power
  | line
  | command
  deriving DecidableEq, Repr

/-- A reference input (R47). -/
structure RefInput where
  present : Bool
  lastPulse : Tick
  deriving DecidableEq, Repr

/-! ## Memory path (08) -/

/-- What an accepted ingest write carries (R7, R19, R24): its feed, target slot and generation, its
completion list of records and lines, and the frame lines whose notice its response sends. -/
structure IngestAccount where
  feed : FeedId
  slot : SlotId
  generation : Byte
  completions : List (SampleNo × Nat)
  notices : List Nat
  deriving DecidableEq, Repr

/-- The class of a forwarded burst with what its response must do (R150 to R153, R163). -/
inductive BusKind where
  | other
  | control
  | slot (f : FeedId) (lines : List (SlotId × Nat))
  | slate
  | ingestWrite (a : IngestAccount)
  | ingestRead
  deriving DecidableEq, Repr

/-- A class 2 request (R160): the Bus Port transaction, the burst as it goes out at the Memory Port, its
class, and for a control block write the cells it took a command from and the ACTIVE cells it wrote
over (R168, R170). -/
structure Forwarded where
  serial : Nat
  burst : Burst
  kind : BusKind
  cells : List CellId
  overruns : List CellId
  deriving DecidableEq, Repr

/-- A class 1 request (R160). -/
inductive Fetch where
  | fill (e : EntryId) (addr : Addr) (len : Nat)
  | slate (index : Nat) (addr : Addr) (len : Nat)
  deriving DecidableEq, Repr

/-- A class 3 request (R160, R162). A status record has no content until its grant. -/
inductive Housekeeping where
  | record (r : RecordSel)
  | trace (o : OutId) (pos : Nat) (content : List Byte)
  | result (c : CellId) (word : Word)
  | table (k : BankId) (page : Page)
  deriving DecidableEq, Repr

/-- What a granted burst is for (R163); a burst that DEVICE_CLEAR abandoned is `discarded` (R164). A
record's grant carries the cells whose IDENTIFY it answers (R186). -/
inductive Work where
  | bus (r : Forwarded)
  | fetch (o : OutId) (f : Fetch)
  | record (r : RecordSel) (content : List Byte) (identify : List CellId)
  | trace (o : OutId) (pos : Nat) (content : List Byte)
  | result (c : CellId) (word : Word)
  | table (k : BankId) (page : Page)
  | discarded
  deriving DecidableEq, Repr

/-- A burst granted at the Memory Port and not yet answered (R161), with its Memory Port ID (R150). -/
structure Granted where
  id : BitVec 9
  write : Bool
  work : Work
  deriving DecidableEq, Repr

/-- A slate read that waits on the slate-write list (R153). -/
structure WaitingSlate where
  output : OutId
  index : Nat
  addr : Addr
  len : Nat
  deriving DecidableEq, Repr

/-- A read burst accepted at the Bus Port and not fully answered (R157): the beats answered so far, and
whether all of them are there. -/
structure ReadTxn where
  serial : Nat
  id : BitVec 8
  beats : List ReadBeat
  ready : Bool
  deriving DecidableEq, Repr

/-- A write burst accepted at the Bus Port and not answered (R157). -/
structure WriteTxn where
  serial : Nat
  id : BitVec 8
  resp : Option Resp
  deriving DecidableEq, Repr

/-- A response sent up the Bus Port. -/
inductive BusOut where
  | read (id : BitVec 8) (beats : List ReadBeat)
  | write (id : BitVec 8) (resp : Resp)
  deriving DecidableEq, Repr

/-! ## The whole part -/

/-- The state of the part, and the queue of the commands and events that wait (log entry 1). -/
structure State where
  resetting : Bool
  powerEdge : Bool
  resetCause : ResetCause
  strap : BitVec 10
  tick : Tick
  refA : RefInput
  refB : RefInput
  feeds : Vector Feed 4
  outputs : Vector Output 4
  cache : Cache
  banks : Vector Bank 2
  cells : Vector Cell 16
  deviceWord : Conds
  deviceMask : Conds
  deviceUpdates : BitVec 16
  notice : Bool
  class1 : Vector (List Fetch) 4
  class2 : List Forwarded
  class3 : List Housekeeping
  pointer : OutId
  granted : List Granted
  waitingSlate : List WaitingSlate
  reads : List ReadTxn
  writes : List WriteTxn
  heldRead : Option Burst
  heldWrite : Option Burst
  nextSerial : Nat
  busOut : List BusOut
  pending : List Instr
  deriving DecidableEq, Repr

/-- Why a step stops the machine. -/
inductive Fault where
  /-- Raised by the rows of responses at the Memory Port when no granted burst of that ID and direction
  waits for an answer: the manual gives such a response no effect. Safe (log entry 9). -/
  | unsolicitedResponse
  deriving DecidableEq, Repr

/-- Why a command has no meaning. -/
inductive Refusal where
  /-- Raised by an arm of `exec` for a row that has no meaning yet; no arm does. Safe. -/
  | notModelled (mnemonic : String)
  deriving DecidableEq, Repr

/-! ## Initial values -/

/-- The Cadence Tracker after power-up, the reset line and DEVICE_CLEAR (R27). -/
def Cadence.initial : Cadence where
  state := .disabled
  seedPending := false
  period := 0
  lastRaw := 0
  lastSmoothed := 0
  regularRun := 0
  irregularRun := 0
  lossTimer := none
  irregularLeft := 0
  irregularCount := 0

/-- A feed after power-up and the reset line (R26, R27, R188, R190, R195). -/
def Feed.initial : Feed where
  config := none
  phase := .idle
  generations := Vector.replicate 8 0
  current := none
  mostRecent := none
  history := []
  sampleCounter := 0
  lastSample := none
  discards := 0
  partials := 0
  cadence := Cadence.initial
  word := 0
  mask := 0
  updates := 0

/-- An idle generator (R52). -/
def Generator.idle : Generator where
  counting := false
  left := 0
  next := .whole

/-- The default set of the response table (R130). -/
def ResponseTable.default : ResponseTable where
  locked := some .convert
  seeking := none
  lost := some .freeze
  holdExpired := some .fill

/-- The mode machinery after power-up, the reset line and DEVICE_CLEAR (R128). -/
def Modes.initial : Modes where
  mode := .fill
  manual := false
  pending := none
  table := ResponseTable.default
  holdLimit := Config.holdLimit
  holdCount := 0
  expired := false
  fill := ⟨64, 512, 512⟩
  slatePage := none
  injection := .none_
  counting := false
  injectN := 0
  injectLeft := 0

def Flags.clear : Flags := ⟨false, false, false, false⟩

/-- The context state after power-up, the reset line and DEVICE_CLEAR (R62). -/
def Contexts.initial : Contexts where
  heldWhole := none
  heldTop := none
  heldBottom := none
  frozen := none
  retired := none
  decision := none
  nextId := 0
  counter := 0
  underruns := 0
  traceIndex := 0

/-- The latch report after power-up, the reset line and DEVICE_CLEAR (R198, R80, R107). -/
def Report.initial : Report where
  latchTick := 0
  kind := .empty
  weight := 0
  flags := Flags.clear
  lastClip := 0
  fetchErrors := 0

/-- An EMPTY line buffer (R112). -/
def LineBuffer.cleared : LineBuffer where
  state := .empty
  line := none
  context := none
  stale := false
  bytes := []

/-- The Line Builder after power-up, the reset line and DEVICE_CLEAR (R108, R112, R120). -/
def LineBuilder.initial : LineBuilder where
  queue := []
  run := none
  buffers := Vector.replicate 2 LineBuffer.cleared
  lastTouched := none
  build := none

/-- An output after power-up and the reset line (R51, R52, R62, R112, R128, R188, R190, R195, R198). -/
def Output.initial : Output where
  state := .unconfigured
  config := none
  gen := Generator.idle
  modes := Modes.initial
  ctx := Contexts.initial
  report := Report.initial
  builder := LineBuilder.initial
  word := 0
  mask := 0
  updates := 0

/-- A FREE Line Cache entry (R121). -/
def CacheEntry.freed : CacheEntry where
  key := none
  state := .free
  uses := 0
  drop := false
  bytes := []
  owner := none
  left := 0
  bad := false

/-- The Line Cache after power-up, the reset line and DEVICE_CLEAR (R121, R127). -/
def Cache.initial : Cache where
  entries := Vector.replicate 64 CacheEntry.freed
  order := []

/-- The linear table: phase φ holds 0, 256 − 8φ, 8φ and 0 (R93). -/
def linearTable : CoefTable :=
  Vector.ofFn fun p => ⟨0, 256 - 8 * (p.val : Int), 8 * (p.val : Int), 0⟩

/-- A reference after power-up and the reset line (R47). -/
def RefInput.initial : RefInput where
  present := false
  lastPulse := 0

/-- The nine status records in the order in which the release of reset and DEVICE_CLEAR mark them
(R195). -/
def RecordSel.all : List RecordSel :=
  [.device, .feed 0, .feed 1, .feed 2, .feed 3, .output 0, .output 1, .output 2, .output 3]

/-- The part while it is held in reset: every block in the state its rule gives for power-up and the
reset line (R26, R27, R60, R62, R85, R93, R120, R127, R128, R160, R164, R168, R188, R190, R195). -/
def State.initial : State where
  resetting := true
  powerEdge := false
  resetCause := .power
  strap := 0
  tick := 0
  refA := RefInput.initial
  refB := RefInput.initial
  feeds := Vector.replicate 4 Feed.initial
  outputs := Vector.replicate 4 Output.initial
  cache := Cache.initial
  banks := Vector.replicate 2 ⟨linearTable, none⟩
  cells := Vector.replicate 16 none
  deviceWord := 0
  deviceMask := 0
  deviceUpdates := 0
  notice := false
  class1 := Vector.replicate 4 []
  class2 := []
  class3 := []
  pointer := 0
  granted := []
  waitingSlate := []
  reads := []
  writes := []
  heldRead := none
  heldWrite := none
  nextSerial := 0
  busOut := []
  pending := []

/-- The machine right after reset: the reset that a power-good edge started has been released with all
straps low, so the cause is POWER and the nine status records are marked (R195, R199, R200). The strap
level is a DESIGN CHOICE, unsafe (log entry 2). -/
def State.reset : State :=
  { State.initial with resetting := false, class3 := RecordSel.all.map .record }

end Sys2Proof.Machine
end

