-- ==== Sys2Proof/Machine/Ops.lean ====
section
/-! DEFINITION. The named operations that the blocks share: the rate table, time differences, reading
and writing one feed, output or cell, the record marks, and the address map. -/

namespace Sys2Proof.Machine

/-! ## The rate table (R3) -/

def RateCode.interlaced : RateCode → Bool
  | .i50 | .i5994 | .i60 => true
  | .p2398 | .p24 | .p25 | .p2997 | .p30 | .p50 | .p5994 | .p60 => false

/-- The sample period in ticks (R3). -/
def RateCode.period : RateCode → Nat
  | .p2398 => 1126125
  | .p24 => 1125000
  | .p25 => 1080000
  | .p2997 => 900900
  | .p30 => 900000
  | .p50 | .i50 => 540000
  | .p5994 | .i5994 => 450450
  | .p60 | .i60 => 450000

/-- The reference that an output rate code selects; none for a code not allowed as an output (R3, R47). -/
def RateCode.outputRef : RateCode → Option Ref
  | .p25 | .p50 | .i50 => some .refA
  | .p2997 | .p5994 | .i5994 => some .refB
  | .p2398 | .p24 | .p30 | .p60 | .i60 => none

/-! ## Fields and time -/

/-- The parity of the first field: 0 for TFF, 1 for BFF (00, Lines and fields); a progressive
configuration has no field order and its samples have parity NONE. -/
def firstParity : Option FieldOrder → Parity
  | none => .whole
  | some .tff => .top
  | some .bff => .bottom

/-- The other field's parity; NONE stays NONE. -/
def Parity.other : Parity → Parity
  | .whole => .whole
  | .top => .bottom
  | .bottom => .top

/-- The parity as the number p of the formulas; 0 for NONE (R88). -/
def Parity.bit : Parity → Nat
  | .whole => 0
  | .top => 0
  | .bottom => 1

/-- Smoothed units: 1/256 tick (R1). -/
def toStamp (t : Tick) : Stamp := BitVec.ofNat 48 (t.toNat * 256)

/-- a − b as a signed number (R1). -/
def Stamp.since (a b : Stamp) : Int := (a - b).toInt

/-- "At or before": the signed difference is not positive (R1). -/
def Stamp.atOrBefore (a b : Stamp) : Bool := Stamp.since a b ≤ 0

/-- Sample number order: the difference modulo 2^32 read as signed (R10). -/
def SampleNo.before (a b : SampleNo) : Bool := (a - b).toInt < 0

/-- A counter that saturates at 65,535. -/
def bump (n : Nat) : Nat := if n < Config.saturation then n + 1 else n

/-! ## Feeds and outputs: geometry -/

/-- `x` rounded up to a whole 4 KiB page. -/
def roundPage (x : Nat) : Nat := (x + 4095) / 4096 * 4096

/-- The window size of a feed (R5). -/
def FeedConfig.windowSize (c : FeedConfig) : Nat := roundPage (c.lines * c.stride)

/-- Lines per source temporal sample, Hf (R17). -/
def FeedConfig.sampleLines (c : FeedConfig) : Nat :=
  if c.rate.interlaced then c.lines / 2 else c.lines

/-- Ps (R27). -/
def FeedConfig.period (c : FeedConfig) : Nat := c.rate.period

/-- The size of an output window (R108). -/
def OutputConfig.windowSize (c : OutputConfig) : Nat := roundPage (c.lines * c.stride)

/-- Po (R50). -/
def OutputConfig.period (c : OutputConfig) : Nat := c.rate.period

/-- The parity of output frame line `y` (R109). -/
def OutputConfig.lineParity (c : OutputConfig) (y : Nat) : Parity :=
  if c.rate.interlaced then (if y % 2 = 0 then .top else .bottom) else .whole

/-! ## Status records: marks (R195) -/

/-- Marking a record requests its class 3 write; a record whose request waits keeps that one request
(R162, R195). -/
def State.mark (r : RecordSel) (s : State) : State :=
  if Housekeeping.record r ∈ s.class3 then s else { s with class3 := s.class3 ++ [.record r] }

def State.markAll (s : State) : State := RecordSel.all.foldl (fun s r => s.mark r) s

/-! ## The device word, the summary positions and the notice line (R188 to R192) -/

/-- The bits of the device word that are conditions. -/
def deviceConds : Conds := 0x007F
/-- The bits of the device word that are summary positions. -/
def summaryBits : Conds := 0xFF00

/-- A word with the one position `n` set. -/
def bit (n : Nat) : Conds := BitVec.ofNat 16 (2 ^ n)

/-- Summary position `n`, set exactly while a condition of the word is set whose mask mark is set (R191). -/
def summaryOf (word mask : Conds) (n : Nat) : Conds := if word &&& mask = 0 then 0 else bit n

/-- FEED0 to FEED3 at bits 8 to 11 and OUT0 to OUT3 at bits 12 to 15 (R202). -/
def State.summaries (s : State) : Conds :=
  summaryOf s.feeds[0].word s.feeds[0].mask 8 ||| summaryOf s.feeds[1].word s.feeds[1].mask 9
    ||| summaryOf s.feeds[2].word s.feeds[2].mask 10 ||| summaryOf s.feeds[3].word s.feeds[3].mask 11
    ||| summaryOf s.outputs[0].word s.outputs[0].mask 12
    ||| summaryOf s.outputs[1].word s.outputs[1].mask 13
    ||| summaryOf s.outputs[2].word s.outputs[2].mask 14
    ||| summaryOf s.outputs[3].word s.outputs[3].mask 15

/-- The device word becomes `w` with the summary positions worked out; a change marks the device record
(R189, R191), and the notice line is worked out again (R192). -/
def State.putDeviceWord (w : Conds) (s : State) : State :=
  let word := (w &&& deviceConds) ||| s.summaries
  let s1 := { s with deviceWord := word, notice := word &&& s.deviceMask ≠ 0 }
  if word = s.deviceWord then s1 else s1.mark .device

/-- The summary positions and the notice line worked out again (R191, R192). -/
def State.refresh (s : State) : State := s.putDeviceWord s.deviceWord

/-- A device condition is set (R188). -/
def State.setDevice (c : Conds) (s : State) : State := s.putDeviceWord (s.deviceWord ||| c)

/-! ## One feed -/

/-- The fields of the feed status record but its update count (R197), with the status of every record
of the history: each record made COMPLETE or PARTIAL marks the feed record too (log entry 18). -/
structure FeedView where
  state : FeedState
  configured : Bool
  regularRun : Nat
  period : Nat
  sampleCounter : SampleNo
  lastSample : Option SampleNo
  records : List RecordStatus
  irregularLeft : Nat
  discards : Nat
  partials : Nat
  irregularCount : Nat
  word : Conds
  mask : Conds
  deriving DecidableEq

def Feed.view (f : Feed) : FeedView where
  state := f.cadence.state
  configured := f.config.isSome
  regularRun := f.cadence.regularRun
  period := f.cadence.period
  sampleCounter := f.sampleCounter
  lastSample := f.lastSample
  records := f.history.map (·.status)
  irregularLeft := f.cadence.irregularLeft
  discards := f.discards
  partials := f.partials
  irregularCount := f.cadence.irregularCount
  word := f.word
  mask := f.mask

/-- The one writer of a feed: a change of what its record shows marks it (R197), and the summary and
the notice line follow its word and mask (R189, R191). -/
def State.putFeed (f : FeedId) (x : Feed) (s : State) : State :=
  let s1 := { s with feeds := s.feeds.set f x }
  (if x.view = s.feeds[f].view then s1 else s1.mark (.feed f)).refresh

def State.modifyFeed (f : FeedId) (g : Feed → Feed) (s : State) : State := s.putFeed f (g s.feeds[f])

/-- A feed condition is set (R188). -/
def State.setFeedCond (f : FeedId) (c : Conds) (s : State) : State :=
  s.modifyFeed f fun x => { x with word := x.word ||| c }

/-! ## One output -/

/-- The fields of the output status record whose change marks it (R128, R198). -/
structure OutputView where
  state : OutputState
  mode : Mode
  manual : Bool
  pending : Option Mode
  holdCount : Nat
  injection : Injection
  injectLeft : Nat
  fetchErrors : Nat
  word : Conds
  mask : Conds
  deriving DecidableEq

def Output.view (x : Output) : OutputView where
  state := x.state
  mode := x.modes.mode
  manual := x.modes.manual
  pending := x.modes.pending
  holdCount := x.modes.holdCount
  injection := x.modes.injection
  injectLeft := x.modes.injectLeft
  fetchErrors := x.report.fetchErrors
  word := x.word
  mask := x.mask

/-- The one writer of an output, as `State.putFeed` is of a feed. -/
def State.putOutput (o : OutId) (x : Output) (s : State) : State :=
  let s1 := { s with outputs := s.outputs.set o x }
  (if x.view = s.outputs[o].view then s1 else s1.mark (.output o)).refresh

def State.modifyOutput (o : OutId) (g : Output → Output) (s : State) : State :=
  s.putOutput o (g s.outputs[o])

/-- An output condition is set (R188). -/
def State.setOutputCond (o : OutId) (c : Conds) (s : State) : State :=
  s.modifyOutput o fun x => { x with word := x.word ||| c }

def State.modifyModes (o : OutId) (g : Modes → Modes) (s : State) : State :=
  s.modifyOutput o fun x => { x with modes := g x.modes }

def State.modifyContexts (o : OutId) (g : Contexts → Contexts) (s : State) : State :=
  s.modifyOutput o fun x => { x with ctx := g x.ctx }

def State.modifyBuilder (o : OutId) (g : LineBuilder → LineBuilder) (s : State) : State :=
  s.modifyOutput o fun x => { x with builder := g x.builder }

/-- Whether the output is STARTING or RUNNING. -/
def Output.live (x : Output) : Bool := x.state = .starting || x.state = .running

/-- Whether the output is bound to feed `f` (00, Terms). -/
def Output.boundTo (x : Output) (f : FeedId) : Bool :=
  match x.config with
  | some c => c.feed = f
  | none => false

def allFeeds : List FeedId := [0, 1, 2, 3]
def allOutputs : List OutId := [0, 1, 2, 3]
def allCells : List CellId := [0, 1, 2, 3, 4, 5, 6, 7, 8, 9, 10, 11, 12, 13, 14, 15]
def allBanks : List BankId := [0, 1]
def allSlots : List SlotId := [0, 1, 2, 3, 4, 5, 6, 7]

/-- Whether an output bound to the feed is STARTING or RUNNING. -/
def State.feedInUse (f : FeedId) (s : State) : Bool :=
  allOutputs.any fun o => s.outputs[o].boundTo f && s.outputs[o].live

/-- Whether a STARTING or RUNNING output names the bank (R183). -/
def State.bankInUse (k : BankId) (s : State) : Bool :=
  allOutputs.any fun o =>
    s.outputs[o].live && (match s.outputs[o].config with | some c => c.bank = k | none => false)

/-! ## Cells (R168, R170) -/

/-- The one writer of a cell: each change between IDLE and ACTIVE marks the device record (R168). -/
def State.putCell (c : CellId) (x : Cell) (s : State) : State :=
  let s1 := { s with cells := s.cells.set c x }
  if x.isSome = s.cells[c].isSome then s1 else s1.mark .device

/-! ## Records of a history -/

/-- The record of a history with a given sample number. -/
def findRecord (n : SampleNo) (h : List SampleRecord) : Option SampleRecord :=
  h.find? fun r => r.number = n

/-- A history with the pin count of the numbered record changed; a record no longer in the history is
passed over (R18). -/
def changePins (g : Nat → Nat) (n : SampleNo) (h : List SampleRecord) : List SampleRecord :=
  h.map fun r => if r.number = n then { r with pins := g r.pins } else r

/-- The distinct records that a context names (R75). -/
def Context.records (x : Context) : List RecordRef :=
  match x.a, x.b with
  | some a, some b => if a.number = b.number then [a] else [a, b]
  | some a, none => [a]
  | none, some b => [b]
  | none, none => []

def State.changePin (g : Nat → Nat) (r : RecordRef) (s : State) : State :=
  s.modifyFeed r.feed fun x => { x with history := changePins g r.number x.history }

/-- A context places one pin on each distinct record it names (R75). -/
def State.pin (x : Context) (s : State) : State :=
  x.records.foldl (fun s r => s.changePin (· + 1) r) s

/-- A context's pins are released (R76). -/
def State.unpin (x : Context) (s : State) : State :=
  x.records.foldl (fun s r => s.changePin (· - 1) r) s

/-! ## The held contexts -/

def Contexts.held (c : Contexts) : Parity → Option Context
  | .whole => c.heldWhole
  | .top => c.heldTop
  | .bottom => c.heldBottom

def Contexts.setHeld (c : Contexts) (p : Parity) (x : Option Context) : Contexts :=
  match p with
  | .whole => { c with heldWhole := x }
  | .top => { c with heldTop := x }
  | .bottom => { c with heldBottom := x }

/-! ## The address map (R147) -/

/-- The control base: the strap value times 1 MiB (R199). -/
def State.controlBase (s : State) : Nat := s.strap.toNat * 1048576

/-- The class of a page with its owner (R147). -/
inductive Region where
  | control
  | ingest (f : FeedId)
  | slots (f : FeedId)
  | window (o : OutId)
  | slate (o : OutId)
  deriving DecidableEq, Repr

/-- An entry of the address map: its first page and its length in pages. -/
structure MapEntry where
  region : Region
  first : Nat
  pages : Nat
  deriving DecidableEq, Repr

def MapEntry.holds (e : MapEntry) (page : Nat) : Bool := e.first ≤ page && page < e.first + e.pages

def MapEntry.overlaps (e d : MapEntry) : Bool :=
  e.first < d.first + d.pages && d.first < e.first + e.pages

def feedEntries (f : FeedId) (c : FeedConfig) : List MapEntry :=
  [⟨.ingest f, c.windowPage.toNat, c.windowSize / 4096⟩,
    ⟨.slots f, c.slotPage.toNat, c.slots * (c.windowSize / 4096)⟩]

def windowEntry (o : OutId) (c : OutputConfig) : MapEntry :=
  ⟨.window o, c.windowPage.toNat, c.windowSize / 4096⟩

def slateEntry (o : OutId) (c : OutputConfig) (page : Page) : MapEntry :=
  ⟨.slate o, page.toNat, c.windowSize / 4096⟩

def outputEntries (o : OutId) (x : Output) : List MapEntry :=
  match x.config with
  | none => []
  | some c =>
    windowEntry o c :: (match x.modes.slatePage with | some p => [slateEntry o c p] | none => [])

/-- The address map: the control block, the windows and slot regions of configured feeds, the windows
and slate regions of configured outputs (R147). -/
def State.addressMap (s : State) : List MapEntry :=
  ⟨.control, s.controlBase / 4096, Config.controlPages⟩ ::
    (allFeeds.flatMap (fun f => match s.feeds[f].config with
      | some c => feedEntries f c
      | none => []) ++ allOutputs.flatMap fun o => outputEntries o s.outputs[o])

/-- The class of the page that holds an address; `none` is class Other (R147, R148). -/
def State.classOf (a : Addr) (s : State) : Option Region :=
  (s.addressMap.find? fun e => e.holds (a.toNat / 4096)).map (·.region)

end Sys2Proof.Machine
end

