-- ==== Sys2Proof/Machine/Flags.lean ====
section
/-! DEFINITION. The positions of the condition words, masks, snapshots and clear masks (R202), and the
conditional clear (R193). -/

namespace Sys2Proof.Machine

/-! ## Feed conditions -/
def lockGained : Conds := bit 0
def lockLost : Conds := bit 1
def feedLost : Conds := bit 2
def irregularLimit : Conds := bit 3
def ingestDiscard : Conds := bit 4
def partialSample : Conds := bit 5
def ingestError : Conds := bit 6
/-- The positions that name a feed condition. -/
def feedConds : Conds := 0x007F

/-! ## Output conditions -/
def underrun : Conds := bit 0
def delayExcess : Conds := bit 1
def gapNearest : Conds := bit 2
def clipped : Conds := bit 3
def fetchError : Conds := bit 4
def modeChanged : Conds := bit 5
def holdExpired : Conds := bit 6
def slateDone : Conds := bit 7
def refRealign : Conds := bit 8
/-- The positions that name an output condition. -/
def outputConds : Conds := 0x01FF

/-! ## Device conditions -/
def refALost : Conds := bit 0
def refBLost : Conds := bit 1
def windowWrite : Conds := bit 2
def burstRefused : Conds := bit 3
def commandOverrun : Conds := bit 4
def commandForm : Conds := bit 5
def clearConflict : Conds := bit 6
/-- The positions that a device mask holds: the conditions and the summary positions (R190). -/
def deviceMaskBits : Conds := deviceConds ||| summaryBits

/-- The live conditions of a word that a clear leaves: the condition is cleared when the clear mask and
the snapshot hold it (R193). -/
def clearedWord (live snapshot mask : Conds) : Conds := live &&& ~~~(snapshot &&& mask)

/-- A conflict: a live condition that the clear mask names and the snapshot does not hold (R193). -/
def clearConflicts (live snapshot mask : Conds) : Bool := live &&& mask &&& ~~~snapshot ≠ 0

end Sys2Proof.Machine
end

