-- ==== Sys2Proof/Machine/Operands.lean ====
section
/-! DEFINITION. The operand forms: the bytes of a burst and of its beats (R149), the whole-cell write of
a command and its words (R165, R203), the fields that each command reads from them (R204), and the
shared codes (R202). -/

namespace Sys2Proof

/-! ## Bytes and words -/

/-- The `n` bytes of a number, least significant first (11, little-endian). -/
def leBytes : Nat → Nat → List Byte
  | 0, _ => []
  | n + 1, x => BitVec.ofNat 8 x :: leBytes n (x / 256)

/-- The number that little-endian bytes hold. -/
def leNat : List Byte → Nat
  | [] => 0
  | b :: bs => b.toNat + 256 * leNat bs

/-- Bits `lo` to `lo + len − 1` of a cell word as an unsigned number (R204). -/
def field (w : Word) (lo len : Nat) : Nat := w.toNat / 2 ^ lo % 2 ^ len

/-! ## Beats and bursts (R149) -/

/-- The first byte of beat `i` of a burst that starts at `a` with beats of `2^size` bytes. -/
def beatStart (a size i : Nat) : Nat := if i = 0 then a else a / 2 ^ size * 2 ^ size + i * 2 ^ size

/-- The bytes of beat `i`: beat 0 runs from `a` to the end of its aligned block. -/
def beatBytes (a size i : Nat) : Nat := if i = 0 then 2 ^ size - a % 2 ^ size else 2 ^ size

/-- The bytes of one aligned block that a WRAP burst covers. -/
def wrapBlock (b : Burst) : Nat := b.len * 2 ^ b.size.val

/-- The lowest byte that a burst addresses: its own address, or for WRAP the start of the block it wraps
in (R149 gives INCR; FIXED and WRAP PRESUMED from AXI4, log entry 13). -/
def Burst.low (b : Burst) : Nat :=
  match b.kind with
  | .incr | .fixed => b.addr.toNat
  | .wrap => b.addr.toNat / wrapBlock b * wrapBlock b

/-- One past the highest byte that a burst addresses (R149; log entry 13). -/
def Burst.stop (b : Burst) : Nat :=
  match b.kind with
  | .incr => b.addr.toNat / 2 ^ b.size.val * 2 ^ b.size.val + b.len * 2 ^ b.size.val
  | .fixed => b.addr.toNat / 2 ^ b.size.val * 2 ^ b.size.val + 2 ^ b.size.val
  | .wrap => b.addr.toNat / wrapBlock b * wrapBlock b + wrapBlock b

/-- Whether the burst addresses a byte from `lo` to `hi − 1`. -/
def Burst.touches (b : Burst) (lo hi : Nat) : Bool := b.low < hi && lo < b.stop

/-- The byte that an INCR write brings for address `x`. -/
def Burst.byteAt (b : Burst) (x : Nat) : Byte := b.data.getD (x - b.addr.toNat) 0

def Burst.strobeAt (b : Burst) (x : Nat) : Bool := b.strobes.getD (x - b.addr.toNat) false

/-- The beats of a read answer whose every beat carries `resp` and zero data (R155). -/
def zeroBeats (resp : Resp) (b : Burst) : List ReadBeat :=
  (List.range b.len).map fun i =>
    ⟨resp, List.replicate (beatBytes b.addr.toNat b.size.val i) 0⟩

/-! ## Command cells (R165, R203) -/

/-- The address of cell `c` for a control base (R165). -/
def cellAddress (base : Nat) (c : CellId) : Nat := base + Config.cells + 32 * c.val

/-- The 32 bytes of a whole-cell write with command code `code` (R203). -/
def CellWrite.bytes (code : Byte) (w : CellWrite) : List Byte :=
  [code, w.target, w.tag, w.spare] ++
    [w.w1, w.w2, w.w3, w.w4, w.w5, w.w6, w.w7].flatMap fun x => leBytes 4 x.toNat

/-- The burst of a whole-cell write: INCR, eight beats of four bytes, every strobe set (R166). -/
def CellWrite.burst (base : Nat) (code : Byte) (w : CellWrite) : Burst where
  write := true
  id := w.id
  addr := BitVec.ofNat 40 (cellAddress base w.cell)
  kind := .incr
  size := 2
  len := 8
  lock := false
  cache := 0
  prot := 0
  data := w.bytes code
  strobes := List.replicate 32 true

/-- Whether a burst covers every byte of cell `c` as R166 asks: INCR, with every strobe of the cell set. -/
def Burst.coversCell (b : Burst) (base : Nat) (c : CellId) : Bool :=
  b.kind = .incr && b.low ≤ cellAddress base c && cellAddress base c + 32 ≤ b.stop &&
    (List.range 32).all fun i => b.strobeAt (cellAddress base c + i)

/-- Whether a burst touches a byte of cell `c` (R167). -/
def Burst.touchesCell (b : Burst) (base : Nat) (c : CellId) : Bool :=
  b.touches (cellAddress base c) (cellAddress base c + 32)

/-- Word `i` of cell `c` as an INCR write brings it. -/
def Burst.cellWord (b : Burst) (base : Nat) (c : CellId) (i : Nat) : Word :=
  BitVec.ofNat 32 (leNat ((List.range 4).map fun k => b.byteAt (cellAddress base c + 4 * i + k)))

/-- The command code of cell `c` in a write (R203). -/
def Burst.cellCode (b : Burst) (base : Nat) (c : CellId) : Byte := b.byteAt (cellAddress base c)

/-- The command that a write brings for cell `c`. -/
def Burst.cellWrite (b : Burst) (base : Nat) (c : CellId) : CellWrite where
  id := b.id
  cell := c
  target := b.byteAt (cellAddress base c + 1)
  tag := b.byteAt (cellAddress base c + 2)
  spare := b.byteAt (cellAddress base c + 3)
  w1 := b.cellWord base c 1
  w2 := b.cellWord base c 2
  w3 := b.cellWord base c 3
  w4 := b.cellWord base c 4
  w5 := b.cellWord base c 5
  w6 := b.cellWord base c 6
  w7 := b.cellWord base c 7

namespace Machine

/-! ## Shared codes (R202) -/

def ResultCode.code : ResultCode → Byte
  | .done => 1 | .wrongState => 2 | .badField => 3 | .overlap => 4 | .geometry => 5 | .inUse => 6
  | .coefInvalid => 7 | .fetchFailed => 8 | .aborted => 9 | .unknown => 10

def RateCode.ofCode : Nat → Option RateCode
  | 0 => some .p2398 | 1 => some .p24 | 2 => some .p25 | 3 => some .p2997 | 4 => some .p30
  | 5 => some .p50 | 6 => some .p5994 | 7 => some .p60 | 8 => some .i50 | 9 => some .i5994
  | 10 => some .i60 | _ => none

def FieldOrder.ofCode : Nat → Option FieldOrder
  | 0 => some .tff | 1 => some .bff | _ => none

def refOfCode : Nat → Option Ref
  | 0 => some .refA | 1 => some .refB | _ => none

/-- A response table target; the outer `none` is a code outside the four values. -/
def targetOfCode : Nat → Option (Option Mode)
  | 0 => some none | 1 => some (some .convert) | 2 => some (some .freeze) | 3 => some (some .fill)
  | _ => none

def Injection.ofCode : Nat → Option Injection
  | 0 => some .none_ | 1 => some .oneShot | 2 => some .periodic | 3 => some .continuous | _ => none

def Temporal.ofCode : Nat → Option Temporal
  | 0 => some .blend | 1 => some .nearest | _ => none

def Clip.ofCode : Nat → Option Clip
  | 0 => some .narrow | 1 => some .full | _ => none

def FeedState.code : FeedState → Nat
  | .disabled => 0 | .seeking => 1 | .locked => 2 | .lost => 3

def OutputState.code : OutputState → Nat
  | .unconfigured => 0 | .stopped => 1 | .starting => 2 | .running => 3

def Mode.code : Mode → Nat
  | .convert => 1 | .freeze => 2 | .fill => 3

/-- A pending mode: 0 while it is absent. -/
def pendingCode : Option Mode → Nat
  | none => 0
  | some m => m.code

def Kind.code : Kind → Nat
  | .convert => 1 | .freeze => 2 | .fill => 3 | .slate => 4 | .empty => 5

def Flags.code (f : Flags) : Nat :=
  f.underrun.toNat + 2 * f.excess.toNat + 4 * f.gap.toNat + 8 * f.nearest.toNat

def Injection.code : Injection → Nat
  | .none_ => 0 | .oneShot => 1 | .periodic => 2 | .continuous => 3

def ResetCause.code : ResetCause → Nat
  | .power => 1 | .line => 2 | .command => 3

/-- The parity code of a trace entry (R205). -/
def Parity.traceCode : Parity → Nat
  | .top => 0 | .bottom => 1 | .whole => 2

/-! ## Parameter fields (R204) and their ranges -/

/-- The first failing check of a list of numbered checks. -/
def firstBad : List (Nat × Bool) → Option Nat
  | [] => none
  | (n, ok) :: rest => if ok then firstBad rest else some n

def pageOk (w : Word) : Bool := w.toNat < 2 ^ 28

/-- W: 256 to 2048, a multiple of 8 (R4, R176). -/
def widthOk (w : Nat) : Bool := 256 ≤ w && w ≤ 2048 && w % 8 = 0

/-- Frame lines: 128 to 1088, even for an interlaced rate code (R4, R90, R176). -/
def linesOk (n rate : Nat) : Bool :=
  128 ≤ n && n ≤ 1088 &&
    (match RateCode.ofCode rate with | some r => !r.interlaced || n % 2 = 0 | none => true)

/-- The field order is read only for an interlaced rate code (R204). -/
def orderOk (order rate : Nat) : Bool :=
  match RateCode.ofCode rate with
  | some r => !r.interlaced || (FieldOrder.ofCode order).isSome
  | none => true

/-- The line stride: a multiple of 64, at least 4W, at most 16,320 (R4, R176). -/
def strideOk (stride w : Nat) : Bool := stride % 64 = 0 && 4 * w ≤ stride && stride ≤ 16320

/-- The field order that a configuration holds: present for an interlaced rate code. -/
def orderOf (order : Nat) (rate : RateCode) : Option FieldOrder :=
  if rate.interlaced then FieldOrder.ofCode order else none

/-- The number of CONFIGURE_FEED's first parameter out of range (R172, R204). -/
def feedParamBad (w : CellWrite) : Option Nat :=
  let rate := field w.w2 0 8
  firstBad [
    (1, widthOk (field w.w1 0 16)),
    (2, linesOk (field w.w1 16 16) rate),
    (3, (RateCode.ofCode rate).isSome),
    (4, orderOk (field w.w2 8 8) rate),
    (5, 3 ≤ field w.w2 16 8 && field w.w2 16 8 ≤ 8),
    (6, strideOk (field w.w3 0 16) (field w.w1 0 16)),
    (7, pageOk w.w4),
    (8, pageOk w.w5),
    (9, 1 ≤ field w.w3 16 8 && field w.w3 16 8 ≤ 15),
    (10, 3 ≤ field w.w2 24 8 && field w.w2 24 8 ≤ 8),
    (11, 2 ≤ field w.w3 24 8),
    (12, 1 ≤ field w.w6 0 8)]

/-- The feed configuration that CONFIGURE_FEED's words give (R204). -/
def feedConfigOf (w : CellWrite) : FeedConfig :=
  let rate := (RateCode.ofCode (field w.w2 0 8)).getD .p25
  { width := field w.w1 0 16
    lines := field w.w1 16 16
    rate := rate
    order := orderOf (field w.w2 8 8) rate
    slots := field w.w2 16 8
    stride := field w.w3 0 16
    slotPage := w.w4.setWidth 28
    windowPage := w.w5.setWidth 28
    lockCount := field w.w3 16 8
    tolShift := field w.w2 24 8
    lossPeriods := field w.w3 24 8
    threshold := field w.w6 0 8 }

/-- The number of CONFIGURE_OUTPUT's first parameter out of range (R176, R50, R204). -/
def outputParamBad (w : CellWrite) : Option Nat :=
  let rate := field w.w1 8 8
  firstBad [
    (1, field w.w1 0 8 ≤ 3),
    (2, widthOk (field w.w2 0 16)),
    (3, linesOk (field w.w2 16 16) rate),
    (4, ((RateCode.ofCode rate).bind RateCode.outputRef).isSome),
    (5, orderOk (field w.w1 16 8) rate),
    (6, (refOfCode (field w.w1 24 8)).isSome &&
      refOfCode (field w.w1 24 8) = (RateCode.ofCode rate).bind RateCode.outputRef),
    (7, strideOk (field w.w3 0 16) (field w.w2 0 16)),
    (8, pageOk w.w4),
    (10, (Temporal.ofCode (field w.w3 16 8)).isSome),
    (11, (Clip.ofCode (field w.w3 24 8)).isSome),
    (12, field w.w5 24 8 ≤ 1)]

/-- The output configuration that CONFIGURE_OUTPUT's words give (R204). -/
def outputConfigOf (w : CellWrite) : OutputConfig :=
  let rate := (RateCode.ofCode (field w.w1 8 8)).getD .p25
  { feed := Fin.ofNat 4 (field w.w1 0 8)
    width := field w.w2 0 16
    lines := field w.w2 16 16
    rate := rate
    order := orderOf (field w.w1 16 8) rate
    ref := (refOfCode (field w.w1 24 8)).getD .refA
    stride := field w.w3 0 16
    windowPage := w.w4.setWidth 28
    delay := field w.w5 0 24
    temporal := (Temporal.ofCode (field w.w3 16 8)).getD .blend
    clip := (Clip.ofCode (field w.w3 24 8)).getD .narrow
    bank := Fin.ofNat 2 (field w.w5 24 8) }

/-- The fill colour that CONFIGURE_OUTPUT's words give (R204). -/
def fillOf (w : CellWrite) : Colour := ⟨field w.w6 0 10, field w.w6 10 10, field w.w6 20 10⟩

/-- SET_RESPONSE: parameters 1 to 4 are targets, 5 the hold limit (R179, R204). -/
def responseParamBad (w : CellWrite) : Option Nat :=
  firstBad [
    (1, (targetOfCode (field w.w1 0 8)).isSome),
    (2, (targetOfCode (field w.w1 8 8)).isSome),
    (3, (targetOfCode (field w.w1 16 8)).isSome),
    (4, (targetOfCode (field w.w1 24 8)).isSome),
    (5, field w.w2 0 16 ≤ 255)]

def responseTableOf (w : CellWrite) : ResponseTable where
  locked := (targetOfCode (field w.w1 0 8)).getD none
  seeking := (targetOfCode (field w.w1 8 8)).getD none
  lost := (targetOfCode (field w.w1 16 8)).getD none
  holdExpired := (targetOfCode (field w.w1 24 8)).getD none

/-- SET_SLATE: the page is read only when it is present, and an injection mode other than NONE needs it
(R180, R204). -/
def slateParamBad (w : CellWrite) : Option Nat :=
  firstBad [
    (1, field w.w1 0 8 ≤ 1),
    (2, field w.w1 0 8 ≠ 1 || pageOk w.w2),
    (3, (Injection.ofCode (field w.w1 8 8)).isSome && (field w.w1 0 8 = 1 || field w.w1 8 8 = 0))]

/-- The slate page of SET_SLATE, or its absence. -/
def slatePageOf (w : CellWrite) : Option Page :=
  if field w.w1 0 8 = 1 then some (w.w2.setWidth 28) else none

def injectionOf (w : CellWrite) : Injection := (Injection.ofCode (field w.w1 8 8)).getD .none_

/-- FORCE_MODE's mode: CONVERT, FREEZE or FILL (R181). -/
def forcedMode (w : CellWrite) : Option Mode := (targetOfCode (field w.w1 0 8)).getD none

/-- The target as a feed, an output or a bank number, when it lies in the command's range (R169, R204). -/
def targetQuad (w : CellWrite) : Option (Fin 4) :=
  if h : w.target.toNat < 4 then some ⟨w.target.toNat, h⟩ else none

def targetBank (w : CellWrite) : Option BankId :=
  if h : w.target.toNat < 2 then some ⟨w.target.toNat, h⟩ else none

/-- The word that a condition word selector names: FEED 0 to 3, OUTPUT 0 to 3, DEVICE (R202). -/
def selectorOf (n : Nat) : Option RecordSel :=
  if h : n < 4 then some (.feed ⟨n, h⟩)
  else if h : n - 4 < 4 then some (.output ⟨n - 4, h⟩)
  else if n = 8 then some .device
  else none

end Machine

end Sys2Proof
end

