-- ==== Sys2Proof/Machine/Cache.lean ====
section
/-! DEFINITION. The Line Cache (06, 6.4): lookups, misses, fills, releases and notices. -/

namespace Sys2Proof.Machine

/-- Whether a response code is an error (R23, R163). -/
def isError : Resp → Bool
  | .okay | .exokay => false
  | .slverr | .decerr => true

/-- All the bytes of a read response, and whether any beat is an error. -/
def beatData (beats : List ReadBeat) : List Byte := beats.flatMap (·.data)
def anyError (beats : List ReadBeat) : Bool := beats.any fun b => isError b.resp

/-- The run of bytes from `lo` to `hi − 1` cut at every multiple of `step`, as (start, length) in address
order (R111, R124). The first argument bounds the number of pieces. -/
def splitRange (step : Nat) : Nat → Nat → Nat → List (Nat × Nat)
  | 0, _, _ => []
  | n + 1, lo, hi =>
    if hi ≤ lo then []
    else
      let cut := min hi ((lo / step + 1) * step)
      (lo, cut - lo) :: splitRange step n cut hi

/-- The pieces of a whole run. -/
def pieces (step lo hi : Nat) : List (Nat × Nat) := splitRange step ((hi - lo) / step + 2) lo hi

def allEntries : List EntryId := List.finRange 64

/-- FETCHING or VALID with a clear drop mark (R121). -/
def CacheEntry.findable (e : CacheEntry) : Bool :=
  (e.state = .fetching || e.state = .valid) && !e.drop

/-- The findable entry that holds a key (R121). -/
def Cache.find (k : CacheKey) (c : Cache) : Option EntryId :=
  allEntries.find? fun i => c.entries[i].findable && c.entries[i].key = some k

def Cache.put (i : EntryId) (e : CacheEntry) (c : Cache) : Cache :=
  { c with entries := c.entries.set i e }

/-- The entry moves to the most recent end of the last-use order (R121). -/
def Cache.touch (i : EntryId) (c : Cache) : Cache :=
  { c with order := c.order.filter (· ≠ i) ++ [i] }

/-- The entry becomes FREE and leaves the last-use order (R121). -/
def Cache.free (i : EntryId) (c : Cache) : Cache :=
  { entries := c.entries.set i CacheEntry.freed, order := c.order.filter (· ≠ i) }

/-- The entry that a miss takes (R123): the lowest FREE one, else the least recently used VALID one with
use count 0. R123 shows that one can always be taken (log entry 20). -/
def Cache.victim (c : Cache) : Option EntryId :=
  (allEntries.find? fun i => c.entries[i].state = .free).or
    (c.order.find? fun i => c.entries[i].state = .valid && c.entries[i].uses = 0)

/-- A hit: the use count rises and the entry becomes the most recent (R122). -/
def Cache.hit (i : EntryId) (c : Cache) : Cache :=
  (c.put i { c.entries[i] with uses := c.entries[i].uses + 1 }).touch i

/-- A miss fills entry `i` for key `k` by `bursts` bursts (R122, R123). -/
def Cache.fetch (k : CacheKey) (o : OutId) (bursts : Nat) (i : EntryId) (c : Cache) : Cache :=
  (c.put i
    { key := some k, state := .fetching, uses := 1, drop := false, bytes := [], owner := some o,
      left := bursts, bad := false }).touch i

/-- What a lookup does (R122): it finds an entry, or takes one to be filled, or no entry can be taken. -/
inductive Lookup where
  | hit (i : EntryId)
  | miss (i : EntryId)
  | stuck
  deriving DecidableEq, Repr

def Cache.look (k : CacheKey) (c : Cache) : Lookup :=
  match c.find k with
  | some i => .hit i
  | none =>
    match c.victim with
    | some i => .miss i
    | none => .stuck

/-- The entry after one burst of its fill has been answered; at the last answer it settles (R124). -/
def CacheEntry.answered (beats : List ReadBeat) (e : CacheEntry) : CacheEntry :=
  let bad := e.bad || anyError beats
  let got := { e with bytes := e.bytes ++ beatData beats, left := e.left - 1, bad := bad }
  if e.left ≤ 1 then
    if bad then { got with state := .faulted, bytes := [] } else { got with state := .valid }
  else got

/-- The release of one hold (R125). -/
def Cache.release (i : EntryId) (c : Cache) : Cache :=
  let e := c.entries[i]
  let n := e.uses - 1
  if n = 0 && (e.state = .faulted || (e.state = .valid && e.drop)) then c.free i
  else c.put i { e with uses := n }

/-- What a notice does to a matching entry (R126). -/
def CacheEntry.noticed (p : CacheKey → Bool) (e : CacheEntry) : CacheEntry :=
  match e.key with
  | none => e
  | some k =>
    if e.state = .free || !p k then e
    else if e.state = .valid && e.uses = 0 then CacheEntry.freed
    else { e with drop := true }

/-- A notice whose matching keys are those of `p` (R126). -/
def Cache.notice (p : CacheKey → Bool) (c : Cache) : Cache :=
  let entries := c.entries.map (CacheEntry.noticed p)
  { entries := entries, order := c.order.filter fun i => entries[i].state ≠ .free }

/-- A line notice with a generation (R24, R126). -/
def lineNotice (f : FeedId) (t : SlotId) (g : Byte) (y : Nat) (k : CacheKey) : Bool :=
  k.feed = f && k.slot = t && k.generation = g && k.line = y

/-- A line notice without a generation (R126, R152). -/
def anyLineNotice (f : FeedId) (t : SlotId) (y : Nat) (k : CacheKey) : Bool :=
  k.feed = f && k.slot = t && k.line = y

/-- A slot notice (R24, R126). -/
def slotNotice (f : FeedId) (t : SlotId) (g : Byte) (k : CacheKey) : Bool :=
  k.feed = f && k.slot = t && k.generation = g

/-- A feed notice (R25, R126). -/
def feedNotice (f : FeedId) (k : CacheKey) : Bool := k.feed = f

def State.notify (p : CacheKey → Bool) (s : State) : State := { s with cache := s.cache.notice p }

end Sys2Proof.Machine
end

