-- ==== Sys2Proof/Machine/BusPort.lean ====
section
/-! DEFINITION. The Bus Port (08, 8.2 and 8.4): accepted bursts, forwarding, answers, and the order in
which responses go up. -/

namespace Sys2Proof.Machine

/-- A read burst joins the accepted reads (R157); `beats` and `ready` are its answer so far. -/
def State.openRead (b : Burst) (beats : List ReadBeat) (ready : Bool) (s : State) : State :=
  { s with
    reads := s.reads ++ [⟨s.nextSerial, b.id, beats, ready⟩]
    nextSerial := s.nextSerial + 1 }

/-- A write burst joins the accepted writes (R157). -/
def State.openWrite (b : Burst) (resp : Option Resp) (s : State) : State :=
  { s with
    writes := s.writes ++ [⟨s.nextSerial, b.id, resp⟩]
    nextSerial := s.nextSerial + 1 }

/-- An accepted burst, read or write, that is not answered yet. -/
def State.openBurst (b : Burst) (s : State) : State :=
  if b.write then s.openWrite b none else s.openRead b [] false

/-- A burst is accepted and forwarded as the class 2 request `out` (R150, R160). -/
def State.forward (b out : Burst) (kind : BusKind) (cells overruns : List CellId) (s : State) : State :=
  let s1 := s.openBurst b
  { s1 with class2 := s1.class2 ++ [⟨s.nextSerial, out, kind, cells, overruns⟩] }

/-- All the beats of a forwarded read have come back (R150). -/
def State.answerRead (serial : Nat) (beats : List ReadBeat) (s : State) : State :=
  { s with
    reads := s.reads.map fun t =>
      if t.serial = serial then { t with beats := beats, ready := true } else t }

/-- One beat of an output read is answered OKAY (R109); the last one makes the burst ready (R159). -/
def State.answerBeat (serial : Nat) (data : List Byte) (last : Bool) (s : State) : State :=
  { s with
    reads := s.reads.map fun t =>
      if t.serial = serial then { t with beats := t.beats ++ [⟨.okay, data⟩], ready := last } else t }

/-- The response of a write has come back. -/
def State.answerWrite (serial : Nat) (resp : Resp) (s : State) : State :=
  { s with
    writes := s.writes.map fun t => if t.serial = serial then { t with resp := some resp } else t }

/-- The reads that can be sent now, with those that stay: a burst goes up whole, once all its beats are
ready and no earlier read of its ID is left (R158, R159). `blocked` is the IDs with an earlier read left. -/
def sendReads : List (BitVec 8) → List ReadTxn → List ReadTxn × List BusOut
  | _, [] => ([], [])
  | blocked, t :: ts =>
    if t.ready && !(blocked.contains t.id) then
      let r := sendReads blocked ts
      (r.1, .read t.id t.beats :: r.2)
    else
      let r := sendReads (t.id :: blocked) ts
      (t :: r.1, r.2)

/-- The writes that can be sent now, with those that stay (R158). -/
def sendWrites : List (BitVec 8) → List WriteTxn → List WriteTxn × List BusOut
  | _, [] => ([], [])
  | blocked, t :: ts =>
    match t.resp with
    | some resp =>
      if !(blocked.contains t.id) then
        let r := sendWrites blocked ts
        (r.1, .write t.id resp :: r.2)
      else
        let r := sendWrites (t.id :: blocked) ts
        (t :: r.1, r.2)
    | none =>
      let r := sendWrites (t.id :: blocked) ts
      (t :: r.1, r.2)

/-- Every response that its ID's order allows goes up the Bus Port; among different IDs in order of
acceptance (R158; DESIGN CHOICE, log entry 11). -/
def State.flush (s : State) : State :=
  let r := sendReads [] s.reads
  let w := sendWrites [] s.writes
  { s with reads := r.1, writes := w.1, busOut := s.busOut ++ r.2 ++ w.2 }

end Sys2Proof.Machine
end

