-- ==== Sys2Proof/Machine/Cadence.lean ====
section
/-! DEFINITION. The Cadence Tracker (02): the sample start, the smoothed stamp, the run counts, the
irregularity monitor, and the tracker's part of ENABLE_FEED, DISABLE_FEED and the loss of a feed. -/

namespace Sys2Proof.Machine

/-- The events that a Cadence Tracker reports to the bound outputs (R42); FEED_SEEKING says whether LOST
is the state left. -/
inductive FeedEvent where
  | locked
  | seeking (fromLost : Bool)
  | lost
  deriving DecidableEq, Repr

/-- What a sample start leaves (R29): the tracker, the smoothed stamp, the feed conditions it sets and
the events it reports. -/
structure SampleStart where
  cadence : Cadence
  stamp : Stamp
  conds : Conds
  events : List FeedEvent
  deriving DecidableEq, Repr

/-- The load value of the loss timer (R39). -/
def FeedConfig.lossLoad (c : FeedConfig) : Nat := c.lossPeriods * c.period

/-- E at the nominal rate: Ps × 256 (R28). -/
def FeedConfig.nominalE (c : FeedConfig) : Nat := c.period * 256

/-- Half the width of the regular band: Ps divided by 2^k, rounded down (R31). -/
def FeedConfig.tolerance (c : FeedConfig) : Nat := c.period / 2 ^ c.tolShift

/-- Whether the interval from the last raw stamp to `s` is regular (R31). -/
def isRegular (c : FeedConfig) (lastRaw s : Tick) : Bool :=
  ((s - lastRaw).toInt - c.period).natAbs ≤ c.tolerance

/-- E kept between Ps × 256 − Ps and Ps × 256 + Ps (R33). -/
def clampPeriod (c : FeedConfig) (e : Int) : Nat :=
  (max (c.period * 256 - c.period : Int) (min e (c.period * 256 + c.period))).toNat

/-- The prediction's error for a regular interval (R32). -/
def predictionError (k : Cadence) (s : Tick) : Int :=
  Stamp.since (toStamp s) (k.lastSmoothed + BitVec.ofNat 48 k.period)

/-- The smoothed stamp of a regular interval: the prediction plus an eighth of its error (R32). -/
def regularStamp (k : Cadence) (s : Tick) : Stamp :=
  k.lastSmoothed + BitVec.ofNat 48 k.period + BitVec.ofInt 48 (predictionError k s / 8)

/-- The estimate after a regular interval: a sixty-fourth of the error, clamped (R32, R33). -/
def regularPeriod (c : FeedConfig) (k : Cadence) (s : Tick) : Nat :=
  clampPeriod c (k.period + predictionError k s / 64)

/-- A stamp that is not after the newest earlier record's stamp becomes that stamp plus 256 (R35). -/
def monotonic (newest : Option Stamp) (stamp : Stamp) : Stamp :=
  match newest with
  | some n => if Stamp.atOrBefore stamp n then n + 256 else stamp
  | none => stamp

/-- A run count advances, saturating at 15 (R37). -/
def bumpRun (n : Nat) : Nat := if n < Config.runLimit then n + 1 else n

/-- The tracker's state and stamp by the seed rule (R30). -/
def seedStart (c : FeedConfig) (k : Cadence) (s : Tick) : Cadence × Stamp :=
  ({ k with seedPending := false, period := c.nominalE, regularRun := 0, irregularRun := 0 }, toStamp s)

/-- A regular interval: the loop moves, the regular run advances, and SEEKING becomes LOCKED when the
run reaches the lock count (R32, R33, R37, R38). -/
def regularStart (c : FeedConfig) (k : Cadence) (s : Tick) : Cadence × Stamp × Conds × List FeedEvent :=
  let run := bumpRun k.regularRun
  let k1 := { k with period := regularPeriod c k s, regularRun := run, irregularRun := 0 }
  if k.state = .seeking && run = c.lockCount then
    ({ k1 with state := .locked }, regularStamp k s, lockGained, [.locked])
  else (k1, regularStamp k s, 0, [])

/-- The irregularity monitor counts an irregular interval (R43). -/
def monitor (k : Cadence) : Cadence × Conds :=
  ({ k with irregularCount := bump k.irregularCount, irregularLeft := k.irregularLeft - 1 },
    if k.irregularLeft = 1 then irregularLimit else 0)

/-- An irregular interval: the stamp restarts, the irregular run advances, LOCKED becomes SEEKING at the
third in a row, and the monitor counts (R34, R37, R38, R43). -/
def irregularStart (k : Cadence) (s : Tick) : Cadence × Stamp × Conds × List FeedEvent :=
  let run := bumpRun k.irregularRun
  let (k1, limit) := monitor { k with regularRun := 0, irregularRun := run }
  if k.state = .locked && run = 3 then
    ({ k1 with state := .seeking }, toStamp s, lockLost ||| limit, [.seeking false])
  else (k1, toStamp s, limit, [])

/-- A sample start ends LOST before anything else (R29 step 1, R41). -/
def leaveLost (k : Cadence) : Cadence × List FeedEvent :=
  if k.state = .lost then ({ k with state := .seeking, seedPending := true }, [.seeking true])
  else (k, [])

/-- The sample start at tick `s`, by the steps of R29. `newest` is the stamp of the newest earlier record
of the history. -/
def sampleStart (c : FeedConfig) (s : Tick) (newest : Option Stamp) (k : Cadence) : SampleStart :=
  let (k1, found) := leaveLost k
  let k2 := { k1 with lossTimer := some c.lossLoad }
  let (k3, made, conds, events) :=
    if k2.seedPending then
      ((seedStart c k2 s).1, (seedStart c k2 s).2, (0 : Conds), ([] : List FeedEvent))
    else if isRegular c k2.lastRaw s then regularStart c k2 s
    else irregularStart k2 s
  let stamp := monotonic newest made
  { cadence := { k3 with lastRaw := s, lastSmoothed := stamp }
    stamp := stamp
    conds := conds
    events := found ++ events }

/-- The tracker's part of ENABLE_FEED (R28). -/
def Cadence.enabled (c : FeedConfig) (k : Cadence) : Cadence :=
  { k with
    state := .seeking
    seedPending := true
    period := c.nominalE
    regularRun := 0
    irregularRun := 0
    lossTimer := some c.lossLoad }

/-- The tracker's part of DISABLE_FEED (R45). -/
def Cadence.disabled (k : Cadence) : Cadence :=
  { k with
    state := .disabled
    lossTimer := none
    seedPending := false
    period := 0
    lastRaw := 0
    lastSmoothed := 0
    regularRun := 0
    irregularRun := 0 }

/-- The tracker at the expiry of the loss timer (R40). -/
def Cadence.goLost (k : Cadence) : Cadence :=
  { k with
    state := .lost
    lossTimer := none
    seedPending := true
    regularRun := 0
    irregularRun := 0 }

end Sys2Proof.Machine
end

