-- ==== Sys2Proof/Machine/Modes.lean ====
section
/-! DEFINITION. Output modes, the response table and slate injection (07). -/

namespace Sys2Proof.Machine

/-! ## Clip ranges and the fill colour (R101, R129) -/

/-- A value clamped to a range (R2). -/
def clampTo (lo hi v : Int) : Int := max lo (min v hi)

/-- The lowest and highest value of a component: luma or not (R101). -/
def clipRange (c : Clip) (luma : Bool) : Int × Int :=
  match c with
  | .narrow => if luma then (64, 940) else (64, 960)
  | .full => (4, 1019)

def clampComponent (c : Clip) (luma : Bool) (v : Int) : Int :=
  clampTo (clipRange c luma).1 (clipRange c luma).2 v

/-- The fill colour as CONFIGURE_OUTPUT holds it (R129). -/
def clampFill (c : Clip) (f : Colour) : Colour where
  y := (clampComponent c true f.y).toNat
  cb := (clampComponent c false f.cb).toNat
  cr := (clampComponent c false f.cr).toNat

/-! ## Table events (R132, R133) -/

/-- The response of step 1 of R132: in AUTO a target that is not NO_CHANGE becomes the pending mode. -/
def Modes.respond (target : Option Mode) (m : Modes) : Modes :=
  if m.manual then m
  else match target with
    | some t => { m with pending := some t }
    | none => m

/-- The hold count zeroed with its expiry mark (R138). -/
def Modes.zeroHold (m : Modes) : Modes := { m with holdCount := 0, expired := false }

/-- A ONE_SHOT slate in the phase ARMED starts counting (R145). -/
def Modes.startOneShot (m : Modes) : Modes :=
  if m.injection = .oneShot && !m.counting then { m with counting := true, injectLeft := m.injectN }
  else m

/-- The table target of an event (R131). -/
def ResponseTable.target (t : ResponseTable) : FeedEvent → Option Mode
  | .locked => t.locked
  | .seeking _ => t.seeking
  | .lost => t.lost

/-- What a feed event does to a STARTING or RUNNING output, in the order of R132. -/
def Modes.feedEvent (e : FeedEvent) (m : Modes) : Modes :=
  let m1 := m.respond (m.table.target e)
  match e with
  | .seeking true => m1.zeroHold
  | .seeking false => m1
  | .locked => m1.startOneShot
  | .lost => m1

/-- A feed event reaches every output bound to the feed; it acts in STARTING and RUNNING (R132). -/
def State.feedEvent (f : FeedId) (e : FeedEvent) (s : State) : State :=
  allOutputs.foldl (fun s o =>
    if s.outputs[o].boundTo f && s.outputs[o].live then s.modifyModes o (Modes.feedEvent e) else s) s

/-- The table event that stands for a feed's present state (R140, R141). -/
def stateEvent : FeedState → Option FeedEvent
  | .locked => some .locked
  | .seeking => some (.seeking false)
  | .lost => some .lost
  | .disabled => none

/-- The table's target for a feed's present state: none for NO_CHANGE and for DISABLED (R140, R141). -/
def ResponseTable.forState (t : ResponseTable) (f : FeedState) : Option Mode :=
  (stateEvent f).bind t.target

/-! ## The injection state (R143, R144) -/

/-- The injection state made ready for a mode and n (R143). -/
def Modes.ready (i : Injection) (n : Nat) (m : Modes) : Modes :=
  { m with
    injection := i
    counting := false
    injectN := n
    injectLeft := match i with
      | .none_ | .continuous => 0
      | .oneShot | .periodic => n }

/-- The evaluation of step 2 of a FRAME START latch: the modes after it, whether the frame is a slate
frame, and the output condition set (R144). -/
def Modes.inject (m : Modes) : Modes × Bool × Conds :=
  match m.injection with
  | .none_ => (m, false, 0)
  | .continuous => (m, true, 0)
  | .periodic =>
    if m.injectLeft = 0 then ({ m with injectLeft := m.injectN }, true, 0)
    else ({ m with injectLeft := m.injectLeft - 1 }, false, 0)
  | .oneShot =>
    if !m.counting then (m, false, 0)
    else if m.injectLeft = 0 then
      ({ m with injection := .none_, counting := false }, true, slateDone)
    else ({ m with injectLeft := m.injectLeft - 1 }, false, 0)

/-! ## The hold count (R137) -/

/-- A FREEZE frame while the feed is LOST: the hold count, and whether HOLD_EXPIRED is raised. -/
def Modes.countHold (m : Modes) : Modes × Bool :=
  if m.holdLimit = 0 then ({ m with holdCount := if m.holdCount < 255 then m.holdCount + 1 else 255 }, false)
  else
    let n := if m.holdCount < m.holdLimit then m.holdCount + 1 else m.holdCount
    if m.holdLimit ≤ n && !m.expired then ({ m with holdCount := n, expired := true }, true)
    else ({ m with holdCount := n }, false)

/-! ## Commands' part of the mode state -/

/-- CONFIGURE_OUTPUT's effect on the mode state (R130). -/
def Modes.configured (fill : Colour) : Modes := { Modes.initial with fill := fill }

/-- START_OUTPUT's effect on the mode state (R141). -/
def Modes.started (f : FeedState) (m : Modes) : Modes :=
  { (m.ready m.injection m.injectN) with
    manual := false
    pending := none
    mode := (m.table.forState f).getD .convert
    holdCount := 0
    expired := false }

/-- STOP_OUTPUT's effect on the mode state (R142). -/
def Modes.stopped (m : Modes) : Modes := { m.zeroHold with pending := none }

/-- RELEASE_MODE's effect (R140). -/
def Modes.released (f : FeedState) (m : Modes) : Modes :=
  { m with manual := false, pending := (m.table.forState f).or m.pending }

end Sys2Proof.Machine
end

