-- ==== Sys2Proof/Machine/Interp.lean ====
section
/-! DEFINITION. The interpolation arithmetic (05): vertical position, tap lines, sums, rounding,
clipping, concealment, and the coefficient table read from memory. -/

namespace Sys2Proof.Machine

/-! ## Vertical position (R88, R89) -/

/-- Hf of a record: its own lines (R89). -/
def recordLines (hs : Nat) (p : Parity) : Nat := if p = .whole then hs else hs / 2

/-- pos32 of output line `y` in the lines of a record of parity `p` (R88). -/
def pos32 (hs ho y : Nat) (p : Parity) : Int :=
  let n : Int := (2 * y + 1) * hs - (1 + 2 * p.bit) * ho
  let d : Int := if p = .whole then 2 * ho else 4 * ho
  32 * n / d

/-- The base line L (R89). -/
def baseLine (hs ho y : Nat) (p : Parity) : Int := pos32 hs ho y p / 32

/-- The phase φ (R89). -/
def phaseOf (hs ho y : Nat) (p : Parity) : Nat := (pos32 hs ho y p % 32).toNat

/-! ## Tap lines (R91, R92) -/

/-- Own line of tap `i`, clamped to the record (R91). -/
def tapLine (hs ho y : Nat) (p : Parity) (i : Nat) : Nat :=
  (clampTo 0 ((recordLines hs p : Int) - 1) (baseLine hs ho y p - 1 + i)).toNat

/-- The frame line that holds own line `i` of a record (R91). -/
def frameLine (p : Parity) (i : Nat) : Nat :=
  match p with
  | .whole => i
  | .top => 2 * i
  | .bottom => 2 * i + 1

/-- The Line Cache key of tap `i` of a record (R91). -/
def Build.tapKey (b : Build) (r : FixedRecord) (i : Nat) : CacheKey where
  feed := r.feed
  slot := r.slot
  generation := r.generation
  line := frameLine r.parity (tapLine b.sourceLines b.outLines b.line r.parity i)

/-- A record's four tap lines, tap 0 first (R91). -/
def Build.taps (b : Build) (r : FixedRecord) : List CacheKey := (List.range 4).map (b.tapKey r)

/-- A list with each element once, at its first place (R92). -/
def distinct (ks : List CacheKey) : List CacheKey :=
  ks.foldl (fun acc k => if acc.contains k then acc else acc ++ [k]) []

/-- Whether A and B are the same record (R87). -/
def Build.same (b : Build) : Bool := b.a.number = b.b.number

/-- The distinct keys that a build requests at its start: A's taps when w is below 256, B's when w is
above 0 (R87, R92, R115). -/
def Build.firstKeys (b : Build) : List CacheKey :=
  distinct ((if b.weight < 256 then b.taps b.a else []) ++ (if 0 < b.weight then b.taps b.b else []))

/-! ## Sums (R96 to R100) -/

/-- The value of source sample `x`: the low 10 bits of its container (R96). -/
def sampleAt (bytes : List Byte) (x : Nat) : Nat :=
  ((bytes.getD (2 * x) 0).toNat + 256 * (bytes.getD (2 * x + 1) 0).toNat) % 1024

/-- The vertical sum of four tap values (R97). -/
def verticalSum (c : Coefs) (v0 v1 v2 v3 : Int) : Int := c.c0 * v0 + c.c1 * v1 + c.c2 * v2 + c.c3 * v3

/-- The temporal sum (R98). -/
def temporalSum (w : Nat) (va vb : Int) : Int := (256 - w) * va + w * vb

/-- The output value before clamping (R99). -/
def roundSum (t : Int) : Int := (t + 32768) / 65536

/-! ## The output line (R101 to R106) -/

/-- Which record's sums a line shows (R87, R104, R105, R106). -/
inductive Shows where
  | blend
  | onlyA
  | onlyB
  | fill
  deriving DecidableEq, Repr

/-- What a build shows from the faults found on A's and on B's requested lines (05, Outcomes of faults). -/
def showsOf (same : Bool) (w : Nat) (faultA faultB : Bool) : Shows :=
  if same then (if faultA || faultB then .fill else if w = 0 then .onlyA else if w = 256 then .onlyB else .blend)
  else if faultA && faultB then .fill
  else if w = 0 then (if faultA then .onlyB else .onlyA)
  else if w = 256 then (if faultB then .onlyA else .onlyB)
  else if faultA then .onlyB
  else if faultB then .onlyA
  else .blend

/-- The keys that a fault calls for: B's when w is 0 and A is faulted, A's when w is 256 and B is faulted,
A and B distinct (R104, R105). -/
def Build.concealKeys (b : Build) (faultA faultB : Bool) : List CacheKey :=
  if b.same then []
  else if b.weight = 0 && faultA then distinct (b.taps b.b)
  else if b.weight = 256 && faultB then distinct (b.taps b.a)
  else []

/-- The temporal sum of what a line shows (R98, R104, R105). -/
def shownSum (sh : Shows) (w : Nat) (va vb : Int) : Int :=
  match sh with
  | .blend => temporalSum w va vb
  | .onlyA => 256 * va
  | .onlyB => 256 * vb
  | .fill => 0

/-- The fill colour's value at container `x` (R103, R110). -/
def Colour.at (c : Colour) (x : Nat) : Nat :=
  match x % 4 with
  | 0 => c.cb
  | 2 => c.cr
  | _ => c.y

/-- Y stands at odd places of the sample order (R96). -/
def isLuma (x : Nat) : Bool := x % 2 = 1

/-- The low and the high byte of a container (R103). -/
def container (v : Nat) : List Byte := leBytes 2 (v % 1024)

/-- The vertical sum of a record at sample `x`, from the bytes of its four tap lines (R97). -/
def Build.sumAt (b : Build) (r : FixedRecord) (lines : List (List Byte)) (x : Nat) : Int :=
  let c := b.table[Fin.ofNat 32 (phaseOf b.sourceLines b.outLines b.line r.parity)]
  verticalSum c (sampleAt (lines.getD 0 []) x) (sampleAt (lines.getD 1 []) x)
    (sampleAt (lines.getD 2 []) x) (sampleAt (lines.getD 3 []) x)

/-- The value of output sample `x` before clamping (R97 to R99). -/
def Build.valueAt (b : Build) (sh : Shows) (linesA linesB : List (List Byte)) (x : Nat) : Int :=
  roundSum (shownSum sh b.weight (b.sumAt b.a linesA x) (b.sumAt b.b linesB x))

/-- The bytes of the fill colour for containers `0` to `n − 1` (R106, R110). -/
def fillLine (c : Colour) (n : Nat) : List Byte := (List.range n).flatMap fun x => container (c.at x)

/-- The line a build computes and its clip tally (R101, R102, R103, R106). -/
def Build.compute (b : Build) (sh : Shows) (linesA linesB : List (List Byte)) : List Byte × Nat :=
  match sh with
  | .fill => (fillLine b.fill (2 * b.width), 0)
  | .blend | .onlyA | .onlyB =>
    let values := (List.range (2 * b.width)).map fun x =>
      (b.valueAt sh linesA linesB x, clampComponent b.clip (isLuma x) (b.valueAt sh linesA linesB x))
    (values.flatMap fun v => container v.2.toNat, (values.filter fun v => v.1 ≠ v.2).length)

/-! ## The coefficient table in memory (R94, R206) -/

/-- The signed 16-bit value at byte `i` of a table (R206). -/
def coefAt (bytes : List Byte) (i : Nat) : Int :=
  (BitVec.ofNat 16 (leNat [bytes.getD i 0, bytes.getD (i + 1) 0])).toInt

/-- The table that 256 bytes hold (R206). -/
def tableOf (bytes : List Byte) : CoefTable :=
  Vector.ofFn fun p =>
    ⟨coefAt bytes (8 * p.val), coefAt bytes (8 * p.val + 2), coefAt bytes (8 * p.val + 4),
      coefAt bytes (8 * p.val + 6)⟩

def coefOk (c : Int) : Bool := -512 ≤ c && c ≤ 511

/-- A valid phase: four coefficients in range that sum to 256 (R94). -/
def Coefs.valid (c : Coefs) : Bool :=
  coefOk c.c0 && coefOk c.c1 && coefOk c.c2 && coefOk c.c3 && c.c0 + c.c1 + c.c2 + c.c3 = 256

/-- The lowest invalid phase of a table (R94). -/
def CoefTable.firstInvalid (t : CoefTable) : Option (Fin 32) :=
  (List.finRange 32).find? fun p => !t[p].valid

end Sys2Proof.Machine
end

