-- ==== Sys2Proof/Machine/Builder.lean ====
section
/-! DEFINITION. The Line Builder (06): output line buffers, line builds, the head beat, slate runs,
completion and prefetch. -/

namespace Sys2Proof.Machine

/-! ## Buffers (R112 to R114) -/

def LineBuilder.putBuffer (i : Fin 2) (x : LineBuffer) (lb : LineBuilder) : LineBuilder :=
  { lb with buffers := lb.buffers.set i x }

/-- A buffer invalidated: READY becomes EMPTY, BUILDING is marked stale (R114). -/
def LineBuffer.invalidate (x : LineBuffer) : LineBuffer :=
  match x.state with
  | .empty => x
  | .ready => LineBuffer.cleared
  | .building => { x with stale := true }

/-- The buffers that hold lines of a context are invalidated (R114). -/
def LineBuilder.invalidateFor (id : BitVec 16) (lb : LineBuilder) : LineBuilder :=
  { lb with
    buffers := lb.buffers.map fun x => if x.context = some id then x.invalidate else x }

/-- Both buffers are invalidated (R114, R119). -/
def LineBuilder.invalidateAll (lb : LineBuilder) : LineBuilder :=
  { lb with buffers := lb.buffers.map LineBuffer.invalidate }

/-- The buffer that a new build fills (R113). -/
def LineBuilder.chooseBuffer (lb : LineBuilder) : Fin 2 :=
  if lb.buffers[(0 : Fin 2)].state = .empty then 0
  else if lb.buffers[(1 : Fin 2)].state = .empty then 1
  else if lb.lastTouched = some 0 then 1
  else 0

/-- The buffer that holds line `y` for context `id` in a given state (R112). -/
def LineBuilder.holding (st : BufferState) (y : Nat) (id : BitVec 16) (lb : LineBuilder) : Option (Fin 2) :=
  ([0, 1] : List (Fin 2)).find? fun i =>
    lb.buffers[i].state = st && lb.buffers[i].line = some y && lb.buffers[i].context = some id

/-! ## Contexts in use (R77) -/

/-- The context held for a parity, changed. -/
def Contexts.changeHeld (p : Parity) (g : Context → Context) (c : Contexts) : Contexts :=
  c.setHeld p ((c.held p).map g)

/-- The context that the build in progress uses, changed: the retired one while there is one, which is the
build's by R77, else the one held for the build's parity (log entry 27). -/
def Contexts.changeUser (p : Parity) (g : Context → Context) (c : Contexts) : Contexts :=
  match c.retired with
  | some x => { c with retired := some (g x) }
  | none => c.changeHeld p g

/-! ## Looking up the tap lines (R115, R122 to R124) -/

/-- The address of the line of a key (R124). -/
def Build.lineAddr (b : Build) (k : CacheKey) : Nat :=
  b.slotPage.toNat * 4096 + k.slot.val * b.slotSize + k.line * b.sourceStride

/-- The bursts that fill a key's line (R124). -/
def Build.fillBursts (b : Build) (k : CacheKey) : List (Nat × Nat) :=
  pieces 256 (b.lineAddr k) (b.lineAddr k + 4 * b.width)

/-- The requests of a fill in class 1 (R124). -/
def fillRequests (e : EntryId) (bursts : List (Nat × Nat)) : List Fetch :=
  bursts.map fun p => .fill e (BitVec.ofNat 40 p.1) p.2

def State.request1 (o : OutId) (fs : List Fetch) (s : State) : State :=
  { s with class1 := s.class1.set o (s.class1[o] ++ fs) }

/-- One lookup of a build, with the entry that the build then holds (R122). -/
def State.lookup (o : OutId) (b : Build) (k : CacheKey) (s : State) : State × List (CacheKey × EntryId) :=
  match s.cache.look k with
  | .hit i => ({ s with cache := s.cache.hit i }, [(k, i)])
  | .miss i =>
    let bursts := b.fillBursts k
    (({ s with cache := s.cache.fetch k o bursts.length i }).request1 o (fillRequests i bursts), [(k, i)])
  | .stuck => (s, [])

/-- The lookups of a build in order, with the entries held (R115). -/
def State.lookupAll (o : OutId) (b : Build) : List CacheKey → State → State × List (CacheKey × EntryId)
  | [], s => (s, [])
  | k :: ks, s =>
    let r := s.lookup o b k
    let rest := r.1.lookupAll o b ks
    (rest.1, r.2 ++ rest.2)

/-- The entry that a build holds for a key. -/
def Build.entryOf (b : Build) (k : CacheKey) : Option EntryId :=
  (b.holds.find? fun h => h.1 = k).map (·.2)

/-- Whether a record of a build has a tap line that came back FAULTED (R104, R105). -/
def State.faulted (b : Build) (r : FixedRecord) (s : State) : Bool :=
  (b.taps r).any fun k =>
    match b.entryOf k with
    | some e => s.cache.entries[e].state = .faulted
    | none => false

/-- Whether every entry a build holds has left FETCHING (R115). -/
def State.settled (b : Build) (s : State) : Bool :=
  b.holds.all fun h => s.cache.entries[h.2].state ≠ .fetching

/-- The concealment keys that a build needs and does not hold (R104, R105, R115). -/
def State.missingConceal (b : Build) (s : State) : List CacheKey :=
  (b.concealKeys (s.faulted b b.a) (s.faulted b b.b)).filter fun k => (b.entryOf k).isNone

/-- Whether a build can complete: every line it needs is held and settled (R92, R115). -/
def State.canComplete (b : Build) (s : State) : Bool :=
  s.settled b && (s.missingConceal b).isEmpty && b.firstKeys.all fun k => (b.entryOf k).isSome

/-- When all the entries of a build have settled and a fault calls for the other record's lines, they are
looked up in tap order (R104, R105, R115). -/
def State.conceal (o : OutId) (s : State) : State :=
  match s.outputs[o].builder.build with
  | none => s
  | some b =>
    if s.settled b && !(s.missingConceal b).isEmpty then
      let r := s.lookupAll o b (s.missingConceal b)
      r.1.modifyBuilder o fun lb => { lb with build := some { b with holds := b.holds ++ r.2 } }
    else s

/-! ## Starting a build (R115) -/

/-- A record as a build fixes it, with its slot's generation (R86). -/
def State.fixRecord (r : RecordRef) (s : State) : FixedRecord where
  feed := r.feed
  number := r.number
  slot := r.slot
  generation := s.feeds[r.feed].generations[r.slot]
  parity := r.parity

/-- The build of line `y` with context `x`, and the values it fixes (R86, R115). -/
def State.newBuild (y : Nat) (x : Context) (a b : RecordRef) (i : Fin 2) (c : OutputConfig)
    (fc : FeedConfig) (fill : Colour) (s : State) : Build where
  line := y
  context := x.id
  parity := c.lineParity y
  buffer := i
  a := s.fixRecord a
  b := s.fixRecord b
  weight := x.weight
  sourceLines := fc.lines
  slotPage := fc.slotPage
  slotSize := fc.windowSize
  sourceStride := fc.stride
  outLines := c.lines
  width := c.width
  clip := c.clip
  fill := fill
  table := s.banks[c.bank].table
  holds := []

/-- The buffer of a starting build (R113). -/
def newBuffer (y : Nat) (id : BitVec 16) : LineBuffer where
  state := .building
  line := some y
  context := some id
  stale := false
  bytes := []

/-- A build of line `y` starts (R115). It needs a held CONVERT or FREEZE context of the line's parity and
a configured feed, which a RUNNING output has. -/
def State.startBuild (o : OutId) (y : Nat) (s : State) : State :=
  let out := s.outputs[o]
  match out.config with
  | none => s
  | some c =>
    match out.ctx.held (c.lineParity y), s.feeds[c.feed].config with
    | some x, some fc =>
      match x.a, x.b with
      | some ra, some rb =>
        let i := out.builder.chooseBuffer
        let b := s.newBuild y x ra rb i c fc out.modes.fill
        let r := s.lookupAll o b b.firstKeys
        r.1.modifyOutput o fun out =>
          { out with
            ctx := out.ctx.changeHeld (c.lineParity y) fun x => { x with uses := x.uses + 1 }
            builder :=
              { (out.builder.putBuffer i (newBuffer y x.id)) with build := some { b with holds := r.2 } } }
      | _, _ => s
    | _, _ => s

/-! ## The head beat (R109 to R111) -/

/-- Byte `b` of a line of the fill colour (R110). -/
def fillByte (c : Colour) (b : Nat) : Byte := (container (c.at (b / 2))).getD (b % 2) 0

/-- The bytes of a beat of `n` bytes at window offset `x`: picture bytes by `pic`, which is given the byte's
place in its line, and zero for padding and for lines from Ho onward (R109). -/
def OutputConfig.beat (c : OutputConfig) (x n : Nat) (pic : Nat → Byte) : List Byte :=
  let y := x / c.stride
  (List.range n).map fun i =>
    let b := x + i - y * c.stride
    if y < c.lines && b < 4 * c.width then pic b else 0

/-- How the head beat is settled (R109). -/
inductive HeadCase where
  | answer (bytes : List Byte) (touched : Option (Fin 2))
  | wait
  | build (y : Nat)
  | slate (page : Page)

/-- The window offset and the length of beat `i` of a queued read. -/
def QueuedRead.start (q : QueuedRead) (i : Nat) : Nat := beatStart q.offset q.size.val i
def QueuedRead.bytes (q : QueuedRead) (i : Nat) : Nat := beatBytes q.offset q.size.val i

/-- The table of R109 for the head beat of `q`, in its order. -/
def Output.headCase (out : Output) (q : QueuedRead) : HeadCase :=
  let n := q.bytes q.done
  match out.config with
  | none => .answer (List.replicate n 0) none
  | some c =>
    let x := q.start q.done
    let y := x / c.stride
    let filled := HeadCase.answer (c.beat x n (fillByte out.modes.fill)) none
    if c.lines ≤ y || 4 * c.width ≤ x - y * c.stride then .answer (List.replicate n 0) none
    else if out.state ≠ .running then filled
    else match out.ctx.held (c.lineParity y) with
      | none => filled
      | some ctx =>
        match ctx.kind with
        | .fill | .empty => filled
        | .slate =>
          match out.modes.slatePage with
          | some p => .slate p
          | none => filled
        | .convert | .freeze =>
          match out.builder.holding .ready y ctx.id with
          | some i => .answer (c.beat x n fun b => out.builder.buffers[i].bytes.getD b 0) (some i)
          | none => if out.builder.build.isSome then .wait else .build y

/-- The head beat is answered and leaves; after its last beat the burst leaves the queue (R108). -/
def State.answerHead (o : OutId) (bytes : List Byte) (touched : Option (Fin 2)) (s : State) : State :=
  match s.outputs[o].builder.queue with
  | [] => s
  | q :: qs =>
    let last : Bool := q.len ≤ q.done + 1
    (s.answerBeat q.serial bytes last).modifyBuilder o fun lb =>
      { lb with
        queue := if last then qs else { q with done := q.done + 1 } :: qs
        lastTouched := touched.or lb.lastTouched }

/-! ### Slate runs (R111, R153) -/

/-- Whether a forwarded burst is a write classed Slate region in a page. One that crosses a 4 KiB boundary (R148)
counts in the page of its first byte alone: the manual does not say in which page it is listed (DESIGN CHOICE, unsafe,
log entry 39). -/
def Forwarded.writesSlate (page : Nat) (r : Forwarded) : Bool :=
  r.kind = .slate && r.burst.write && r.burst.addr.toNat / 4096 = page

/-- Whether the slate-write list, the writes of class Slate region accepted and not yet answered, holds a
write in a page (R153). -/
def State.slateWritten (page : Nat) (s : State) : Bool :=
  s.class2.any (Forwarded.writesSlate page) ||
    s.granted.any fun g =>
      match g.work with
      | .bus r => r.writesSlate page
      | _ => false

/-- A slate read joins class 1, or waits for the writes of its page (R153). -/
def State.offerSlate (w : WaitingSlate) (s : State) : State :=
  if s.slateWritten (w.addr.toNat / 4096) then { s with waitingSlate := s.waitingSlate ++ [w] }
  else s.request1 w.output [.slate w.index w.addr w.len]

/-- The waiting slate reads whose page no listed write holds join class 1 (R153). -/
def State.releaseSlate (s : State) : State :=
  s.waitingSlate.foldl (fun s w => s.offerSlate w) { s with waitingSlate := [] }

/-- The head beat and the beats after it in the head burst that lie in the same line (R111). -/
def QueuedRead.runBeats (q : QueuedRead) (stride : Nat) : Nat :=
  ((List.range (q.len - q.done)).takeWhile fun i =>
    q.start (q.done + i) / stride = q.start q.done / stride).length

/-- The run of the head beat, with one read for each page its picture bytes touch (R111). -/
def OutputConfig.slateRun (c : OutputConfig) (q : QueuedRead) : SlateRun :=
  let x := q.start q.done
  let n := q.runBeats c.stride
  let last := q.done + n - 1
  let lineStart := x / c.stride * c.stride
  let stop := min (q.start last + q.bytes last) (lineStart + 4 * c.width)
  { beats := n
    lineStart := lineStart
    pictureEnd := lineStart + 4 * c.width
    reads := (pieces 4096 x stop).map fun p => ⟨p.1, p.2, none⟩ }

/-- The run is fixed and its reads are offered in address order (R111). -/
def State.startRun (o : OutId) (page : Page) (s : State) : State :=
  match s.outputs[o].config, s.outputs[o].builder.queue with
  | some c, q :: _ =>
    let run := c.slateRun q
    let s1 := s.modifyBuilder o fun lb => { lb with run := some run }
    run.reads.zipIdx.foldl (fun s p =>
      s.offerSlate ⟨o, p.2, BitVec.ofNat 40 (page.toNat * 4096 + p.1.offset), p.1.len⟩) s1
  | _, _ => s

/-- The head beat is taken, and again as each next beat becomes the head, until one waits (R108, R109).
The first argument bounds the beats taken. A run in flight keeps the head (log entry 22). -/
def State.serve : Nat → OutId → State → State
  | 0, _, s => s
  | n + 1, o, s =>
    match s.outputs[o].builder.queue with
    | [] => s
    | q :: _ =>
      if s.outputs[o].builder.run.isSome then s
      else match s.outputs[o].headCase q with
        | .answer bytes touched => State.serve n o (s.answerHead o bytes touched)
        | .wait => s
        | .build y => s.startBuild o y
        | .slate page => s.startRun o page

/-- The beats of a queue not yet answered. -/
def beatsLeft (qs : List QueuedRead) : Nat := (qs.map fun q => q.len - q.done + 1).sum

/-- The head beat of an output is taken (R109). -/
def State.takeHead (o : OutId) (s : State) : State :=
  s.serve (beatsLeft s.outputs[o].builder.queue + 1) o

/-- The bytes of beat `i` of the run's burst, from the answers to the reads: as stored, or the fill colour
where the read of the beat's page returned an error (R111). -/
def SlateRun.beat (r : SlateRun) (fill : Colour) (x n : Nat) : List Byte :=
  (List.range n).map fun i =>
    if r.pictureEnd ≤ x + i then 0
    else match r.reads.find? fun p => p.offset / 4096 = (x + i) / 4096 with
      | some p =>
        match p.answer with
        | some (some bytes) => bytes.getD (x + i - p.offset) 0
        | _ => fillByte fill (x + i - r.lineStart)
      | none => fillByte fill (x + i - r.lineStart)

/-- The beats of a run are answered in order (R111). -/
def State.answerRun : Nat → OutId → SlateRun → State → State
  | 0, _, _, s => s
  | n + 1, o, r, s =>
    match s.outputs[o].builder.queue with
    | [] => s
    | q :: _ =>
      let bytes := r.beat s.outputs[o].modes.fill (q.start q.done) (q.bytes q.done)
      State.answerRun n o r (s.answerHead o bytes none)

/-- One more fetch error: the counter saturates and FETCH_ERROR is set (R107, R111). -/
def Output.fetchFailed (x : Output) : Output :=
  { x with
    report := { x.report with fetchErrors := bump x.report.fetchErrors }
    word := x.word ||| fetchError }

/-- The response to read `i` of an output's run; the last one answers the run (R111). The manual does not give the
moment at which a failed read of several sets FETCH_ERROR and the counter: the model does both at the last response
(DEDUCED, log entry 38). -/
def State.slateAnswer (o : OutId) (i : Nat) (beats : List ReadBeat) (s : State) : State :=
  match s.outputs[o].builder.run with
  | none => s
  | some run =>
    let got := if anyError beats then none else some (beatData beats)
    let run1 := { run with reads := run.reads.modify i fun p => { p with answer := some got } }
    if run1.reads.all fun p => p.answer.isSome then
      let failed := run1.reads.any fun p => p.answer = some none
      let s1 := s.modifyOutput o fun x => if failed then x.fetchFailed else x
      let s2 := (s1.answerRun run1.beats o run1).modifyBuilder o fun lb => { lb with run := none }
      s2.takeHead o
    else s.modifyBuilder o fun lb => { lb with run := some run1 }

/-! ## The completion of a build (R116) -/

/-- The bytes of a record's tap lines, tap 0 first. -/
def State.tapBytes (b : Build) (r : FixedRecord) (s : State) : List (List Byte) :=
  (b.taps r).map fun k =>
    match b.entryOf k with
    | some e => s.cache.entries[e].bytes
    | none => []

/-- The line of a build and its clip tally (R101 to R106, R115). -/
def State.computeLine (b : Build) (s : State) : List Byte × Nat :=
  b.compute (showsOf b.same b.weight (s.faulted b b.a) (s.faulted b b.b))
    (s.tapBytes b b.a) (s.tapBytes b b.b)

/-- The clip tally joins the context's clip count, saturating (R80, R102). -/
def Context.addClips (n : Nat) (x : Context) : Context :=
  { x with clips := min (x.clips + n) Config.saturation }

/-- The buffer at the completion of its build: READY, or EMPTY when its stale mark is set (R116). -/
def LineBuilder.finish (i : Fin 2) (bytes : List Byte) (lb : LineBuilder) : LineBuilder :=
  if lb.buffers[i].stale then { (lb.putBuffer i LineBuffer.cleared) with build := none }
  else
    { (lb.putBuffer i { lb.buffers[i] with state := .ready, bytes := bytes }) with
      lastTouched := some i
      build := none }

/-- A retired context whose use count has fallen to 0 is released (R77). -/
def State.releaseRetired (o : OutId) (s : State) : State :=
  match s.outputs[o].ctx.retired with
  | none => s
  | some x =>
    if x.uses = 0 then (s.unpin x).modifyContexts o fun c => { c with retired := none } else s

/-- Whether a prefetch of line `y` may start (R118). -/
def Output.prefetches (out : Output) (y : Nat) : Bool :=
  match out.config with
  | none => false
  | some c =>
    y < c.lines && out.state = .running && out.builder.queue.isEmpty && out.builder.build.isNone &&
      (match out.ctx.held (c.lineParity y) with
        | none => false
        | some x =>
          (x.kind = .convert || x.kind = .freeze) && (out.builder.holding .ready y x.id).isNone)

/-- The prefetch of step 7 of R116, for the line after the one just completed (R118). -/
def State.prefetch (o : OutId) (y : Nat) (s : State) : State :=
  if s.outputs[o].prefetches y then s.startBuild o y else s

/-- The completion of a build, by the steps of R116. A faulty build marks the output record also when its
counter is at the top and FETCH_ERROR is set already (R107). -/
def State.completeBuild (o : OutId) (b : Build) (s : State) : State :=
  let line := s.computeLine b
  let faulty : Bool := b.holds.any fun h => s.cache.entries[h.2].state = .faulted
  let s1 := s.modifyOutput o fun x =>
    let y : Output :=
      { x with
        ctx := x.ctx.changeUser b.parity fun c =>
          let d := c.addClips line.2
          { d with uses := d.uses - 1 }
        builder := x.builder.finish b.buffer line.1 }
    if faulty then y.fetchFailed else y
  let s2 := if faulty then s1.mark (.output o) else s1
  let s3 := { s2 with cache := b.holds.foldl (fun (c : Cache) (h : CacheKey × EntryId) => c.release h.2) s2.cache }
  ((s3.releaseRetired o).takeHead o).prefetch o (b.line + 1)

/-- The event LINE_BUILD_COMPLETION: it happens when the output's build can complete (R115, R116). -/
def State.buildCompletion (o : OutId) (s : State) : State :=
  match s.outputs[o].builder.build with
  | none => s
  | some b => if s.canComplete b then (s.completeBuild o b).flush else s

/-! ## Accepting a read, and the fills (R108, R124) -/

/-- A read of output `o`'s window joins its read queue (R108). -/
def State.outputRead (o : OutId) (b : Burst) (s : State) : State :=
  match s.outputs[o].config with
  | none => s
  | some c =>
    let q : QueuedRead :=
      { serial := s.nextSerial
        offset := b.addr.toNat - c.windowPage.toNat * 4096
        size := b.size
        len := b.len
        done := 0 }
    let wasEmpty := s.outputs[o].builder.queue.isEmpty
    let s1 := (s.openRead b [] false).modifyBuilder o fun lb => { lb with queue := lb.queue ++ [q] }
    if wasEmpty then (s1.takeHead o).flush else s1

/-- The response to a fill burst of entry `e`; when the fill settles, the builds that hold the entry go on
(R124, R115). Which of several builds told by one settled fill makes its concealment lookups first, and with it
the requesting output of a fill and the entries taken, is the model's choice: by output index (DESIGN CHOICE,
log entry 25). -/
def State.fillAnswer (e : EntryId) (beats : List ReadBeat) (s : State) : State :=
  let s1 := { s with cache := s.cache.put e (s.cache.entries[e].answered beats) }
  if s1.cache.entries[e].state = .fetching then s1
  else allOutputs.foldl (fun s o =>
    match s.outputs[o].builder.build with
    | some b => if b.holds.any (fun h => h.2 = e) then s.conceal o else s
    | none => s) s1

/-! ## DEVICE_CLEAR (R120) -/

/-- Black: Y 64, Cb and Cr 512 (R120). -/
def black : Colour := ⟨64, 512, 512⟩

/-- The beats of a queued read that are not answered yet, answered with black (R120). -/
def OutputConfig.blackBeats (c : OutputConfig) (q : QueuedRead) : List ReadBeat :=
  (List.range (q.len - q.done)).map fun i =>
    ⟨.okay, c.beat (q.start (q.done + i)) (q.bytes (q.done + i)) (fillByte black)⟩

/-- Every beat of an output's read queue is answered with black (R120). -/
def State.blackOut (o : OutId) (s : State) : State :=
  match s.outputs[o].config with
  | none => s
  | some c =>
    s.outputs[o].builder.queue.foldl (fun s q =>
      { s with
        reads := s.reads.map fun t =>
          if t.serial = q.serial then { t with beats := t.beats ++ c.blackBeats q, ready := true }
          else t }) s

end Sys2Proof.Machine
end

