-- ==== Sys2Proof/Machine/Ingest.lean ====
section
/-! DEFINITION. The Ingest Tracker (01): anchors, slots, sample records, the steering of ingest writes
and reads, and what the response to a forwarded ingest write does. -/

namespace Sys2Proof.Machine

/-! ## Anchors (R9) -/

/-- The two kinds of anchor. -/
inductive Anchor where
  | frame
  | second
  deriving DecidableEq, Repr

/-- The anchor, with its parity, of a write whose first byte lies at window offset `x` (R9). -/
def anchorAt (c : FeedConfig) (x : Nat) : Option (Anchor × Parity) :=
  let p1 := firstParity c.order
  if x = p1.bit * c.stride then some (.frame, p1)
  else if c.rate.interlaced && x = p1.other.bit * c.stride then some (.second, p1.other)
  else none

/-! ## Slots (R12, R13) -/

/-- The records of slot `t`, oldest first. -/
def slotRecords (t : SlotId) (h : List SampleRecord) : List SampleRecord := h.filter fun r => r.slot = t

/-- The sum of the pin counts of a slot's records (R12). -/
def slotPins (t : SlotId) (h : List SampleRecord) : Nat := ((slotRecords t h).map (·.pins)).sum

/-- A slot qualifies for a new frame when it is not current and not pinned (R13). -/
def Feed.qualifies (n : Nat) (x : Feed) (t : SlotId) : Bool :=
  t.val < n && x.current ≠ some t && slotPins t x.history = 0

/-- The sample number of the newest record of a slot. -/
def newestIn (t : SlotId) (h : List SampleRecord) : Option SampleNo :=
  (slotRecords t h).getLast?.map (·.number)

/-- Of two slots, the one whose newest record has the lower sample number (R13). -/
def olderSlot (h : List SampleRecord) (t u : SlotId) : SlotId :=
  match newestIn t h, newestIn u h with
  | some a, some b => if SampleNo.before b a then u else t
  | _, _ => t

/-- The slot chosen for a new frame: the lowest empty qualifying slot, else the qualifying slot whose
newest record is oldest (R13). -/
def Feed.chooseSlot (n : Nat) (x : Feed) : Option SlotId :=
  let good := allSlots.filter (x.qualifies n)
  (good.find? fun t => (slotRecords t x.history).isEmpty).or
    (match good with
      | [] => none
      | t :: ts => some (ts.foldl (olderSlot x.history) t))

/-! ## Records (R17, R22) -/

/-- The record of a slot with a parity. -/
def recordOf (t : SlotId) (p : Parity) (h : List SampleRecord) : Option SampleRecord :=
  h.find? fun r => r.slot = t && r.parity = p

/-- The FILLING records that `p` names become PARTIAL (R22). -/
def endFilling (p : SampleRecord → Bool) (h : List SampleRecord) : List SampleRecord :=
  h.map fun r => if r.status = .filling && p r then { r with status := .partial_ } else r

def fillingCount (p : SampleRecord → Bool) (h : List SampleRecord) : Nat :=
  (h.filter fun r => r.status = .filling && p r).length

/-- The FILLING records that `p` names become PARTIAL, each advancing the partial counter and setting
PARTIAL_SAMPLE (R22). -/
def Feed.makePartial (p : SampleRecord → Bool) (x : Feed) : Feed :=
  let n := fillingCount p x.history
  { x with
    history := endFilling p x.history
    partials := bump^[n] x.partials
    word := if n = 0 then x.word else x.word ||| partialSample }

/-- The FILLING records of the current slot become PARTIAL (R14, R15, R22). -/
def Feed.endCurrent (x : Feed) : Feed := x.makePartial fun r => some r.slot = x.current

/-- One more discard: the counter saturates and INGEST_DISCARD is set (R15, R16). -/
def Feed.discard (x : Feed) : Feed :=
  { x with discards := bump x.discards, word := x.word ||| ingestDiscard }

/-- What an anchor settles before the sample start (R11): the feed, the slot that receives a new record,
and the slot and generation whose slot notice is sent. -/
structure Settled where
  feed : Feed
  slot : Option SlotId
  freed : Option (SlotId × Byte)

/-- A frame anchor (R14, R15). -/
def Feed.settleFrame (c : FeedConfig) (x : Feed) : Settled :=
  match x.chooseSlot c.slots with
  | some t =>
    let y := x.endCurrent
    { feed :=
        { y with
          generations := y.generations.set t (y.generations[t] + 1)
          history := y.history.filter fun r => r.slot ≠ t
          current := some t
          mostRecent := some t
          phase := .capturing }
      slot := some t
      freed := some (t, x.generations[t]) }
  | none =>
    { feed := { x.endCurrent.discard with current := none, phase := .discarding }
      slot := none
      freed := none }

/-- A second-field anchor, by phase (R16). -/
def Feed.settleSecond (c : FeedConfig) (p : Parity) (x : Feed) : Settled :=
  match x.phase, x.current with
  | .capturing, some t =>
    if (recordOf t p x.history).isNone then { feed := x, slot := some t, freed := none }
    else x.settleFrame c
  | .discarding, _ => { feed := x.discard, slot := none, freed := none }
  | _, _ => x.settleFrame c

def Feed.settle (c : FeedConfig) (a : Anchor) (p : Parity) (x : Feed) : Settled :=
  match a with
  | .frame => x.settleFrame c
  | .second => x.settleSecond c p

/-- A new record (R17). -/
def newRecord (n : SampleNo) (t : SlotId) (p : Parity) (stamp : Stamp) : SampleRecord where
  number := n
  slot := t
  parity := p
  stamp := stamp
  status := .filling
  lineMap := []
  linesDone := 0
  pins := 0

/-- The stamp of the newest record of a history (R35). -/
def newestStamp (h : List SampleRecord) : Option Stamp := h.getLast?.map (·.stamp)

/-- The feed after an anchor at tick `now`: slot and record settled, the sample start handled, the sample
number taken, the new record with its stamp at the history's end (R10, R11, R18, R29, R36). -/
def Feed.anchored (c : FeedConfig) (a : Anchor) (p : Parity) (now : Tick) (x : Feed) :
    Feed × SampleStart × Option (SlotId × Byte) :=
  let d := x.settle c a p
  let r := sampleStart c now (newestStamp d.feed.history) d.feed.cadence
  let made := match d.slot with
    | some t => [newRecord x.sampleCounter t p r.stamp]
    | none => []
  ({ d.feed with
      history := d.feed.history ++ made
      sampleCounter := x.sampleCounter + 1
      lastSample := some x.sampleCounter
      cadence := r.cadence
      word := d.feed.word ||| r.conds }, r, d.freed)

/-- An anchor of feed `f`: the slot notice, the feed, and the events to the bound outputs (R11, R24, R42). -/
def State.anchor (f : FeedId) (c : FeedConfig) (a : Anchor) (p : Parity) (s : State) : State :=
  let r := s.feeds[f].anchored c a p s.tick
  let s1 := match r.2.2 with
    | some (t, g) => s.notify (slotNotice f t g)
    | none => s
  r.2.1.events.foldl (fun s e => s.feedEvent f e) (s1.putFeed f r.1)

/-- An anchor is taken in AWAITING, CAPTURING and DISCARDING (R9). -/
def State.takeAnchor (f : FeedId) (c : FeedConfig) (x : Nat) (s : State) : State :=
  if s.feeds[f].phase = .idle then s
  else match anchorAt c x with
    | some (a, p) => s.anchor f c a p
    | none => s

/-! ## Steering (R7, R8) -/

/-- The window offset of a burst. -/
def FeedConfig.offset (c : FeedConfig) (b : Burst) : Nat := b.addr.toNat - c.windowPage.toNat * 4096

/-- The address of offset `x` of slot `t` (R5). -/
def FeedConfig.slotAddr (c : FeedConfig) (t : SlotId) (x : Nat) : Addr :=
  BitVec.ofNat 40 (c.slotPage.toNat * 4096 + t.val * c.windowSize + x)

/-- The lines of a stride that the bytes from `lo` to `hi − 1` touch. -/
def linesTouched (stride lo hi : Nat) : List Nat :=
  (List.range ((hi - 1) / stride + 1 - lo / stride)).map (· + lo / stride)

/-- The parity of the record that holds frame line `y`, and its line there (R17, R19). -/
def FeedConfig.place (c : FeedConfig) (y : Nat) : Parity × Nat :=
  if c.rate.interlaced then (if y % 2 = 0 then .top else .bottom, y / 2) else (.whole, y)

/-- The completion list of a write of window bytes `lo` to `hi − 1` into slot `t` (R19). -/
def completionList (c : FeedConfig) (t : SlotId) (h : List SampleRecord) (lo hi : Nat) :
    List (SampleNo × Nat) :=
  (linesTouched c.stride lo hi).filterMap fun y =>
    let last := y * c.stride + 4 * c.width - 1
    if y < c.lines && lo ≤ last && last < hi then
      match recordOf t (c.place y).1 h with
      | some r => if r.status = .filling then some (r.number, (c.place y).2) else none
      | none => none
    else none

/-- The frame lines of COMPLETE records that a write touches (R24). -/
def completeLines (c : FeedConfig) (t : SlotId) (h : List SampleRecord) (lo hi : Nat) : List Nat :=
  (linesTouched c.stride lo hi).filter fun y =>
    y < c.lines &&
      (match recordOf t (c.place y).1 h with
        | some r => r.status = .complete
        | none => false)

/-- What a write steered into slot `t` carries (R7, R19, R24). -/
def accountOf (f : FeedId) (c : FeedConfig) (t : SlotId) (x : Feed) (lo hi : Nat) : IngestAccount where
  feed := f
  slot := t
  generation := x.generations[t]
  completions := completionList c t x.history lo hi
  notices := completeLines c t x.history lo hi

/-- A burst into a window as it goes out at the Memory Port: another address, and no exclusive mark
(R154, R155). -/
def Burst.steered (b : Burst) (a : Addr) : Burst := { b with addr := a, lock := false }

/-- The steering of an ingest write by the phase that results (R7). -/
def State.steerWrite (f : FeedId) (c : FeedConfig) (b : Burst) (s : State) : State :=
  let x := s.feeds[f]
  match x.phase, x.current with
  | .capturing, some t =>
    let lo := c.offset b
    let acct := accountOf f c t x lo (lo + (b.stop - b.addr.toNat))
    s.forward b (Burst.steered b (c.slotAddr t lo)) (.ingestWrite acct) [] []
  | _, _ => (s.openWrite b (some .okay)).flush

/-- An ingest write (R7): its anchor is taken before the write is steered. -/
def State.ingestWrite (f : FeedId) (b : Burst) (s : State) : State :=
  match s.feeds[f].config with
  | none => s
  | some c => (s.takeAnchor f c (c.offset b)).steerWrite f c b

/-- An ingest read goes to the current slot, else the most recent slot, else its own address (R8). -/
def State.ingestRead (f : FeedId) (b : Burst) (s : State) : State :=
  match s.feeds[f].config with
  | none => s
  | some c =>
    let a := match s.feeds[f].current.or s.feeds[f].mostRecent with
      | some t => c.slotAddr t (c.offset b)
      | none => b.addr
    s.forward b (Burst.steered b a) .ingestRead [] []

/-! ## The response to a forwarded ingest write (R20 to R24) -/

/-- One line of a FILLING record marked done; the last one makes it COMPLETE (R20, R21). -/
def SampleRecord.markLine (hf i : Nat) (r : SampleRecord) : SampleRecord :=
  if r.status = .filling && !(r.lineMap.contains i) then
    { r with
      lineMap := r.lineMap ++ [i]
      linesDone := r.linesDone + 1
      status := if r.linesDone + 1 = hf then .complete else .filling }
  else r

/-- One entry of a completion list taken (R20). -/
def markEntry (hf : Nat) (e : SampleNo × Nat) (h : List SampleRecord) : List SampleRecord :=
  h.map fun r => if r.number = e.1 then r.markLine hf e.2 else r

def Feed.markLines (hf : Nat) (es : List (SampleNo × Nat)) (x : Feed) : Feed :=
  { x with history := es.foldl (fun h e => markEntry hf e h) x.history }

/-- What the Ingest Tracker does at the response to a forwarded ingest write: lines marked at OKAY,
INGEST_ERROR set at an error, and in both cases the line notices (R20, R23, R24). -/
def State.ingestResponse (a : IngestAccount) (resp : Resp) (s : State) : State :=
  let s1 :=
    if isError resp then s.setFeedCond a.feed ingestError
    else s.modifyFeed a.feed fun x =>
      x.markLines (match x.config with | some c => c.sampleLines | none => 0) a.completions
  a.notices.foldl (fun s y => s.notify (lineNotice a.feed a.slot a.generation y)) s1

/-! ## Loss and disable (R22, R25) -/

/-- The Ingest Tracker when its feed enters LOST (R6, R22, R40). -/
def Feed.lostIngest (x : Feed) : Feed := { x.endCurrent with phase := .awaiting, current := none }

/-- The Ingest Tracker's part of DISABLE_FEED but for the feed notice (R25). -/
def Feed.disabledIngest (x : Feed) : Feed :=
  { x.makePartial (fun _ => true) with history := [], current := none, mostRecent := none, phase := .idle }

/-- The expiry of a feed's loss timer (R40). -/
def State.enterLost (f : FeedId) (s : State) : State :=
  (s.modifyFeed f fun x =>
    let y := x.lostIngest
    { y with cadence := y.cadence.goLost, word := y.word ||| feedLost }).feedEvent f .lost

end Sys2Proof.Machine
end

