-- ==== Sys2Proof/Machine/Phase.lean ====
section
/-! DEFINITION. The Phase Unit (04, 07): the latch, selection and weight, retirement of contexts, the
frame-boundary work, and the trace entry. -/

namespace Sys2Proof.Machine

/-- The cause of an output sample pulse (R54). -/
inductive PulseCause where
  | start
  | underflow
  | realign
  deriving DecidableEq, Repr

/-- An output sample pulse (R54); its latch tick is the tick counter. `frameStart` is the frame position
FRAME START. -/
structure Pulse where
  parity : Parity
  frameStart : Bool
  cause : PulseCause
  deriving DecidableEq, Repr

/-! ## Selection (R66 to R73) -/

/-- What a selection leaves: the kind, the records, the weight, the flags, and the conditions it sets. -/
structure Selection where
  kind : Kind
  a : Option RecordRef
  b : Option RecordRef
  weight : Nat
  flags : Flags
  conds : Conds
  deriving DecidableEq, Repr

/-- The target instant in the units of smoothed stamps (R66). -/
def targetStamp (latch : Tick) (delay : Nat) : Stamp := toStamp (latch - BitVec.ofNat 40 delay)

/-- The eligible records: COMPLETE at the latch (R67). -/
def eligible (h : List SampleRecord) : List SampleRecord := h.filter fun r => r.status = .complete

/-- A: the eligible record with the greatest sample number at or before τ'; the history is in order of
sample number (R18, R68). -/
def recordA (t : Stamp) (h : List SampleRecord) : Option SampleRecord :=
  ((eligible h).filter fun r => Stamp.atOrBefore r.stamp t).getLast?

/-- B: the eligible record with the least sample number after τ' (R68). -/
def recordB (t : Stamp) (h : List SampleRecord) : Option SampleRecord :=
  (eligible h).find? fun r => !Stamp.atOrBefore r.stamp t

def SampleRecord.ref (f : FeedId) (r : SampleRecord) : RecordRef :=
  ⟨f, r.number, r.slot, r.parity, r.stamp⟩

/-- The weight by the four steps of R69. -/
def blendWeight (sa sb t : Stamp) : Nat :=
  let span := Stamp.since sb sa
  (clampTo 0 256 ((Stamp.since t sa * 256 + span / 2) / span)).toNat

/-- A blend is a gap when its span exceeds 2 × Ps × 256 (R70). -/
def isGap (ps : Nat) (sa sb : Stamp) : Bool := 2 * (ps : Int) * 256 < Stamp.since sb sa

/-- A weight rounded to a nearest record (R71). -/
def nearestWeight (w : Nat) : Nat := if w < 128 then 0 else 256

/-- The selection of a CONVERT latch (R68 to R73). -/
def select (f : FeedId) (ps : Nat) (mode : Temporal) (t : Stamp) (h : List SampleRecord) : Selection :=
  match recordA t h, recordB t h with
  | some a, some b =>
    let gap := isGap ps a.stamp b.stamp
    let rounded : Bool := gap || mode = .nearest
    let w := blendWeight a.stamp b.stamp t
    { kind := .convert, a := some (a.ref f), b := some (b.ref f)
      weight := if rounded then nearestWeight w else w
      flags := ⟨false, false, gap, rounded⟩
      conds := if gap then gapNearest else 0 }
  | some a, none =>
    { kind := .convert, a := some (a.ref f), b := some (a.ref f), weight := 0
      flags := ⟨true, false, false, false⟩, conds := underrun }
  | none, some b =>
    { kind := .convert, a := some (b.ref f), b := some (b.ref f), weight := 0
      flags := ⟨false, true, false, false⟩, conds := delayExcess }
  | none, none =>
    { kind := .empty, a := none, b := none, weight := 0, flags := Flags.clear, conds := 0 }

/-- A FREEZE context's selection is the frozen context's (R74). -/
def Selection.ofFrozen (x : Context) : Selection :=
  { kind := .freeze, a := x.a, b := x.b, weight := x.weight, flags := x.flags, conds := 0 }

/-- A selection without records (R74). -/
def Selection.plain (k : Kind) : Selection :=
  { kind := k, a := none, b := none, weight := 0, flags := Flags.clear, conds := 0 }

/-- The kind of the new context and, for CONVERT, its selection (R65). -/
def State.choose (c : OutputConfig) (d : FrameDecision) (frozen : Option Context) (s : State) : Selection :=
  if d.slate then Selection.plain .slate
  else match d.mode with
    | .fill => Selection.plain .fill
    | .freeze =>
      match frozen with
      | some x => Selection.ofFrozen x
      | none => Selection.plain .fill
    | .convert =>
      let ps := match s.feeds[c.feed].config with
        | some fc => fc.period
        | none => 0
      select c.feed ps c.temporal (targetStamp s.tick c.delay) s.feeds[c.feed].history

/-! ## Retirement and release (R76, R77, R84) -/

/-- A context that is no longer held: its buffers are invalidated, and its pins are released at once, or
kept while a build uses it (R76). -/
def State.retire (o : OutId) (x : Context) (s : State) : State :=
  let s1 := s.modifyBuilder o (LineBuilder.invalidateFor x.id)
  if x.uses = 0 then s1.unpin x
  else s1.modifyContexts o fun c => { c with retired := some x }

/-- The held context of a parity is retired with no new one in its place (R84). -/
def State.dropHeld (o : OutId) (p : Parity) (s : State) : State :=
  match s.outputs[o].ctx.held p with
  | none => s
  | some x => (s.modifyContexts o fun c => c.setHeld p none).retire o x

/-- The frozen context is released (R136). -/
def State.dropFrozen (o : OutId) (s : State) : State :=
  match s.outputs[o].ctx.frozen with
  | none => s
  | some x => (s.unpin x).modifyContexts o fun c => { c with frozen := none }

/-! ## The frame boundary (R134, R135, R137) -/

/-- Of two contexts, the CONVERT one with the greater output sample number (R135). The counter wraps, and the
manual gives no order across the wrap: numbers are compared as R10 compares a feed's, by the difference modulo
2^32 read as signed (DESIGN CHOICE, log entry 35). -/
def laterConvert (best : Option Context) (x : Option Context) : Option Context :=
  match x with
  | none => best
  | some c =>
    if c.kind ≠ .convert then best
    else match best with
      | none => some c
      | some d => if SampleNo.before d.number c.number then some c else some d

/-- The most recent CONVERT context among the held ones (R135). -/
def Contexts.latestConvert (c : Contexts) : Option Context :=
  [c.heldWhole, c.heldTop, c.heldBottom].foldl laterConvert none

/-- The frozen context made on entry into FREEZE, with its own pins (R135). -/
def State.makeFrozen (o : OutId) (s : State) : State :=
  let c := s.outputs[o].ctx
  match c.latestConvert with
  | none => s
  | some x =>
    let y := { x with id := c.nextId, clips := 0, uses := 0 }
    (s.pin y).modifyContexts o fun c => { c with frozen := some y, nextId := c.nextId + 1 }

/-- Part 1 of R134: a pending mode becomes the output mode; MODE_CHANGED when it differs. -/
def Output.applyPending (x : Output) : Output :=
  match x.modes.pending with
  | none => x
  | some m =>
    { x with
      modes := { x.modes with mode := m, pending := none }
      word := if m = x.modes.mode then x.word else x.word ||| modeChanged }

/-- Part 2 of R134: the frozen context made on entering FREEZE, released on leaving it. -/
def State.refreeze (o : OutId) (before : Mode) (s : State) : State :=
  let now := s.outputs[o].modes.mode
  if before ≠ .freeze && now = .freeze then s.makeFrozen o
  else if before = .freeze && now ≠ .freeze then s.dropFrozen o
  else s

/-- Part 3 of R134: the hold count zeroed outside FREEZE, advanced at a counted frame in FREEZE; an expiry
sets HOLD_EXPIRED and is taken as a table event (R132, R137). -/
def Output.hold (feed : FeedState) (x : Output) : Output :=
  if x.modes.mode ≠ .freeze then { x with modes := x.modes.zeroHold }
  else if feed ≠ .lost then x
  else
    let r := x.modes.countHold
    if r.2 then
      { x with modes := r.1.respond r.1.table.holdExpired, word := x.word ||| holdExpired }
    else { x with modes := r.1 }

/-- The frame-boundary work (R134). -/
def State.frameBoundary (o : OutId) (c : OutputConfig) (s : State) : State :=
  let before := s.outputs[o].modes.mode
  let s1 := (s.modifyOutput o Output.applyPending).refreeze o before
  s1.modifyOutput o (Output.hold s1.feeds[c.feed].cadence.state)

/-- Steps 2 and 3 of R63: the injection state is evaluated and the frame decision recorded (R144). -/
def Output.decide (x : Output) : Output :=
  let r := x.modes.inject
  { x with
    modes := r.1
    word := x.word ||| r.2.2
    ctx := { x.ctx with decision := some ⟨r.1.mode, r.2.1⟩ } }

/-! ## The trace entry (R82, R83, R205) -/

/-- A sample number of a trace entry: all ones when the record is absent (R82). -/
def traceNumber (r : Option RecordRef) : Nat :=
  match r with
  | some x => x.number.toNat
  | none => 2 ^ 32 - 1

/-- The 16 bytes of a trace entry (R205). -/
def Context.traceEntry (x : Context) : List Byte :=
  leBytes 4 x.number.toNat ++ leBytes 4 (traceNumber x.a) ++ leBytes 4 (traceNumber x.b)
    ++ leBytes 2 x.weight ++ leBytes 1 x.kind.code
    ++ leBytes 1 (x.flags.code + 64 * x.parity.traceCode)

/-- Whether a class 3 request is the trace entry of a ring position. -/
def Housekeeping.isTrace (o : OutId) (pos : Nat) : Housekeeping → Bool
  | .trace p i _ => p = o && i = pos
  | _ => false

/-- A trace entry is queued; it replaces an earlier one for its position, in that one's place (R83; log
entry 17). -/
def State.queueTrace (o : OutId) (pos : Nat) (content : List Byte) (s : State) : State :=
  if s.class3.any (Housekeeping.isTrace o pos) then
    { s with
      class3 := s.class3.map fun r => if r.isTrace o pos then .trace o pos content else r }
  else { s with class3 := s.class3 ++ [.trace o pos content] }

/-! ## The latch (R63, R64) -/

/-- The context that a latch makes (R63 step 5). -/
def newContext (c : Contexts) (sel : Selection) (p : Pulse) (now : Tick) : Context where
  id := c.nextId
  kind := sel.kind
  a := sel.a
  b := sel.b
  weight := sel.weight
  flags := sel.flags
  parity := p.parity
  number := c.counter
  latchTick := now
  clips := 0
  uses := 0

/-- The placeholder of the START pulse of an interlaced output (R79). -/
def placeholder (x : Context) : Context where
  id := x.id + 1
  kind := .empty
  a := none
  b := none
  weight := 0
  flags := Flags.clear
  parity := x.parity.other
  number := x.number
  latchTick := x.latchTick
  clips := 0
  uses := 0

/-- Steps 5 and 6 of R63 on the contexts: the new one takes its parity's place and the next context id; the
START pulse of an interlaced output also sets the placeholder (R79). -/
def Contexts.install (x : Context) (p : Pulse) (c : Contexts) : Contexts :=
  let c1 := { c.setHeld p.parity (some x) with nextId := c.nextId + 1 }
  if p.cause = .start && p.parity ≠ .whole then
    { c1.setHeld p.parity.other (some (placeholder x)) with nextId := c.nextId + 2 }
  else c1

/-- Step 7 of R63: the clip count of the replaced context is published (R80). -/
def Output.publish (old : Option Context) (x : Output) : Output :=
  match old with
  | none => x
  | some y =>
    { x with
      report := { x.report with lastClip := y.clips }
      word := if y.clips = 0 then x.word else x.word ||| clipped }

/-- Steps 8 and 10 of R63 on the output: the conditions and the underrun counter of the selection, the
latch report, and the advance of the sample counter and the trace write index (R72, R81). -/
def Output.latched (y : Context) (sel : Selection) (x : Output) : Output :=
  { x with
    word := x.word ||| sel.conds
    report :=
      { x.report with
        latchTick := y.latchTick.setWidth 32
        kind := y.kind
        weight := y.weight
        flags := y.flags }
    ctx :=
      { x.ctx with
        underruns := if sel.conds = underrun then bump x.ctx.underruns else x.ctx.underruns
        counter := x.ctx.counter + 1
        traceIndex := (x.ctx.counter + 1).toNat % 64 } }

/-- Steps 1 to 3 of R63, which a SECOND FIELD pulse skips (R64). -/
def State.frameWork (o : OutId) (c : OutputConfig) (p : Pulse) (s : State) : State :=
  if p.frameStart then (s.frameBoundary o c).modifyOutput o Output.decide else s

/-- The frame decision that a latch takes (R64, R65). -/
def Contexts.frameDecision (c : Contexts) (m : Mode) : FrameDecision := c.decision.getD ⟨m, false⟩

/-- One latch of an output (R63, R64). -/
def State.latch (o : OutId) (p : Pulse) (s : State) : State :=
  match s.outputs[o].config with
  | none => s
  | some c =>
    let s1 := s.frameWork o c p
    let out := s1.outputs[o]
    let sel := s1.choose c (out.ctx.frameDecision out.modes.mode) out.ctx.frozen
    let x := newContext out.ctx sel p s1.tick
    let old := out.ctx.held p.parity
    let s2 := (s1.pin x).modifyContexts o (Contexts.install x p)
    let s3 := match old with
      | some y => s2.retire o y
      | none => s2
    let s4 := s3.modifyOutput o fun out => (out.publish old).latched x sel
    (s4.queueTrace o (x.number.toNat % 64) x.traceEntry).mark (.output o)

/-! ## Stopping (R84, R119) -/

/-- The contexts of an output are given up (R84). -/
def State.giveUpContexts (o : OutId) (s : State) : State :=
  ((((s.dropHeld o .whole).dropHeld o .top).dropHeld o .bottom).dropFrozen o).modifyContexts o
    fun c => { c with decision := none }

end Sys2Proof.Machine
end

