-- ==== Sys2Proof/Machine/Timing.lean ====
section
/-! DEFINITION. The Timing Generator (03): references, pulse generators, the start and realignment of
outputs, the loss timers' expiry, and the tick. -/

namespace Sys2Proof.Machine

/-! ## References (R47 to R49) -/

def State.ref (r : Ref) (s : State) : RefInput :=
  match r with
  | .refA => s.refA
  | .refB => s.refB

/-- The one writer of a reference; a change of its state marks the device record (R47). -/
def State.putRef (r : Ref) (x : RefInput) (s : State) : State :=
  let s1 := match r with
    | .refA => { s with refA := x }
    | .refB => { s with refB := x }
  if x.present = (s.ref r).present then s1 else s1.mark .device

/-- The absence interval of a reference (R47). -/
def absence : Ref → Nat
  | .refA => Config.absenceA
  | .refB => Config.absenceB

/-- The condition that the loss of a reference sets (R49). -/
def refLost : Ref → Conds
  | .refA => refALost
  | .refB => refBLost

/-- Whether a PRESENT reference has reached its absence interval (R49). -/
def State.absenceDue (r : Ref) (s : State) : Bool :=
  (s.ref r).present && (absence r : Int) ≤ (s.tick - (s.ref r).lastPulse).toInt

/-- A reference becomes ABSENT at its absence interval and its condition is set (R49). -/
def State.referenceAbsent (r : Ref) (s : State) : State :=
  if s.absenceDue r then (s.putRef r { s.ref r with present := false }).setDevice (refLost r) else s

/-! ## Pulse generators (R52 to R57) -/

/-- The parity of an output's first field; NONE for a progressive output (R50). -/
def OutputConfig.p1 (c : OutputConfig) : Parity := firstParity c.order

/-- A generator loaded at a FRAME START pulse (R53, R57). -/
def OutputConfig.loaded (c : OutputConfig) : Generator where
  counting := true
  left := c.period
  next := c.p1.other

/-- The pulse for the first sample of a frame (R53, R57). -/
def OutputConfig.firstPulse (c : OutputConfig) (cause : PulseCause) : Pulse := ⟨c.p1, true, cause⟩

def State.loadGenerator (o : OutId) (g : Generator) (s : State) : State :=
  s.modifyOutput o fun x => { x with gen := g }

/-- The pulse that ends the wait of a STARTING output (R53). -/
def State.beginOutput (o : OutId) (c : OutputConfig) (s : State) : State :=
  ((s.modifyOutput o fun x => { x with state := .running }).latch o (c.firstPulse .start)).loadGenerator o
    c.loaded

/-- Whether a reference pulse is coincident with a generator (R56). -/
def Generator.coincident (c : OutputConfig) (g : Generator) : Bool :=
  (g.left = 0 && g.next = c.p1) || (g.left = c.period && g.next = c.p1.other)

/-- A pulse that is not coincident realigns a RUNNING output (R57). -/
def State.realign (o : OutId) (c : OutputConfig) (s : State) : State :=
  ((s.latch o (c.firstPulse .realign)).loadGenerator o c.loaded).setOutputCond o refRealign

/-- A reference pulse offered to one output (R48, R53, R56). -/
def State.offerPulse (r : Ref) (o : OutId) (s : State) : State :=
  let x := s.outputs[o]
  match x.config with
  | none => s
  | some c =>
    if c.ref ≠ r then s
    else match x.state with
      | .unconfigured | .stopped => s
      | .starting => s.beginOutput o c
      | .running => if x.gen.coincident c then s else s.realign o c

/-- A pulse at a reference input (R48). -/
def State.referencePulse (r : Ref) (s : State) : State :=
  allOutputs.foldl (fun s o => s.offerPulse r o) (s.putRef r ⟨true, s.tick⟩)

/-- Whether an output's generator is due to underflow (R52). -/
def Output.underflowDue (x : Output) : Bool := x.gen.counting && x.gen.left = 0

/-- The underflow of a generator: the pulse, the reload, the next parity (R52, R54, R55). -/
def State.underflow (o : OutId) (s : State) : State :=
  let x := s.outputs[o]
  match x.config with
  | none => s
  | some c =>
    if x.underflowDue then
      (s.latch o ⟨x.gen.next, x.gen.next = c.p1, .underflow⟩).loadGenerator o
        { x.gen with left := c.period, next := x.gen.next.other }
    else s

/-! ## The loss timer (R39, R40) -/

/-- Whether a feed's loss timer has reached zero. -/
def Feed.lossDue (x : Feed) : Bool := x.cadence.lossTimer = some 0

/-- The expiry of a loss timer (R39, R40). -/
def State.lossExpiry (f : FeedId) (s : State) : State := if s.feeds[f].lossDue then s.enterLost f else s

/-! ## The tick (R39, R46, R52) -/

def Feed.ticked (x : Feed) : Feed :=
  { x with cadence := { x.cadence with lossTimer := x.cadence.lossTimer.map (· - 1) } }

def Output.ticked (x : Output) : Output :=
  if x.gen.counting then { x with gen := { x.gen with left := x.gen.left - 1 } } else x

/-- One period of the tick clock: the counter advances, running loss timers and COUNTING generators count
down by one. -/
def State.advance (s : State) : State :=
  { s with tick := s.tick + 1, feeds := s.feeds.map Feed.ticked, outputs := s.outputs.map Output.ticked }

/-- The events due at the present tick that no command has brought yet: absences, loss expiries,
underflows. They happen at their own tick (R39, R49, R52), so before the counter advances (DESIGN CHOICE of
their order, log entry 4). -/
def State.settleTick (s : State) : State :=
  let s1 := (s.referenceAbsent .refA).referenceAbsent .refB
  allOutputs.foldl (fun s o => s.underflow o) (allFeeds.foldl (fun s f => s.lossExpiry f) s1)

end Sys2Proof.Machine
end

