-- ==== Sys2Proof/Machine/Records.lean ====
section
/-! DEFINITION. The contents of the status records as their writes carry them (10, 11). -/

namespace Sys2Proof.Machine

/-- `n` bytes of zero. -/
def zeros (n : Nat) : List Byte := List.replicate n 0

/-- The cell states: bit c set while cell c is ACTIVE (R205). -/
def State.cellBits (s : State) : Nat :=
  (allCells.map fun c => if s.cells[c].isSome then 2 ^ c.val else 0).sum

/-- The device status record (R196, R205). -/
def State.deviceRecord (s : State) : List Byte :=
  leBytes 2 Config.partCode.toNat ++ [Config.revision] ++ leBytes 1 s.resetCause.code
    ++ leBytes 2 s.strap.toNat ++ leBytes 1 (s.refA.present.toNat + 2 * s.refB.present.toNat) ++ zeros 1
    ++ leBytes 4 (s.tick.toNat / 256) ++ leBytes 2 s.deviceWord.toNat ++ leBytes 2 s.deviceMask.toNat
    ++ leBytes 2 s.cellBits ++ zeros 44 ++ leBytes 2 s.deviceUpdates.toNat

/-- The last sample number: all ones before the first anchor (R197). -/
def Feed.lastNumber (x : Feed) : Nat :=
  match x.lastSample with
  | some n => n.toNat
  | none => 2 ^ 32 - 1

/-- The feed status record (R197, R205). -/
def Feed.record (x : Feed) : List Byte :=
  leBytes 1 x.cadence.state.code ++ leBytes 1 x.config.isSome.toNat ++ leBytes 1 x.cadence.regularRun
    ++ leBytes 1 x.history.length ++ leBytes 4 x.cadence.period ++ leBytes 4 x.sampleCounter.toNat
    ++ leBytes 4 x.lastNumber ++ leBytes 1 x.cadence.irregularLeft ++ zeros 1 ++ leBytes 2 x.discards
    ++ leBytes 2 x.partials ++ leBytes 2 x.cadence.irregularCount ++ leBytes 2 x.word.toNat
    ++ leBytes 2 x.mask.toNat ++ zeros 34 ++ leBytes 2 x.updates.toNat

/-- The output status record (R198, R205). -/
def Output.record (x : Output) : List Byte :=
  leBytes 1 x.state.code ++ leBytes 1 x.modes.mode.code ++ leBytes 1 x.modes.manual.toNat
    ++ leBytes 1 (pendingCode x.modes.pending) ++ leBytes 1 x.modes.injection.code
    ++ leBytes 1 x.modes.injectLeft ++ leBytes 1 x.modes.holdCount ++ leBytes 1 x.report.kind.code
    ++ leBytes 2 x.report.weight ++ leBytes 1 x.report.flags.code ++ zeros 1
    ++ leBytes 4 x.report.latchTick.toNat ++ leBytes 2 x.report.lastClip ++ leBytes 2 x.ctx.underruns
    ++ leBytes 2 x.report.fetchErrors ++ leBytes 1 x.ctx.traceIndex ++ zeros 1
    ++ leBytes 4 x.ctx.counter.toNat ++ leBytes 2 x.word.toNat ++ leBytes 2 x.mask.toNat ++ zeros 30
    ++ leBytes 2 x.updates.toNat

/-- The content of a record as it stands (R195). -/
def State.recordContent (r : RecordSel) (s : State) : List Byte :=
  match r with
  | .device => s.deviceRecord
  | .feed f => s.feeds[f].record
  | .output o => s.outputs[o].record

/-- The update count of a record advances by one, modulo 65,536 (R195). -/
def State.countUpdate (r : RecordSel) (s : State) : State :=
  match r with
  | .device => { s with deviceUpdates := s.deviceUpdates + 1 }
  | .feed f => { s with feeds := s.feeds.set f { s.feeds[f] with updates := s.feeds[f].updates + 1 } }
  | .output o =>
    { s with outputs := s.outputs.set o { s.outputs[o] with updates := s.outputs[o].updates + 1 } }

/-- The offset of a record from the control base (R201). -/
def RecordSel.offset : RecordSel → Nat
  | .device => 0
  | .feed f => Config.feedRecords + 64 * f.val
  | .output o => Config.outputRecords + 64 * o.val

/-- The offset of entry `i` of an output's trace ring (R82). -/
def traceOffset (o : OutId) (i : Nat) : Nat := Config.traceRings + 0x400 * o.val + 16 * i

/-- The bytes of the control block that a class 3 request writes: a record or a trace entry, as R151
names them. -/
def Housekeeping.written : Housekeeping → Option (Nat × Nat)
  | .record r => some (r.offset, 64)
  | .trace o i _ => some (traceOffset o i, 16)
  | .result _ _ => none
  | .table _ _ => none

/-- The same of a granted burst. -/
def Work.written : Work → Option (Nat × Nat)
  | .record r _ _ => some (r.offset, 64)
  | .trace o i _ => some (traceOffset o i, 16)
  | .bus _ | .fetch _ _ | .result _ _ | .table _ _ | .discarded => none

end Sys2Proof.Machine
end

