-- ==== Sys2Proof/Machine/Commands.lean ====
section
/-! DEFINITION. The Command Unit (09): result words, the checks of R169, the region check, and the effect
of each of the sixteen commands once it has been taken from its cell. -/

namespace Sys2Proof.Machine

/-! ## Result words (R170) -/

/-- A result word: code, echoed tag, detail, zero (R203). -/
def resultWord (code : ResultCode) (tag detail : Byte) : Word :=
  BitVec.ofNat 32 (code.code.toNat + 256 * tag.toNat + 65536 * detail.toNat)

/-- A settled result whose host write has been answered is requested in class 3, once (R170). -/
def State.requestResult (c : CellId) (s : State) : State :=
  match s.cells[c] with
  | none => s
  | some a =>
    match a.settled, a.hostAnswered, a.stage with
    | some r, true, .unrequested =>
      let s1 := s.putCell c (some { a with stage := .waiting })
      { s1 with class3 := s1.class3 ++ [.result c (resultWord r.1 a.tag r.2)] }
    | _, _, _ => s

/-- A command's result is settled (R170). -/
def State.settle (c : CellId) (code : ResultCode) (detail : Byte) (s : State) : State :=
  match s.cells[c] with
  | none => s
  | some a => (s.putCell c (some { a with settled := some (code, detail) })).requestResult c

/-! ## Checks (R169, R171) -/

/-- A refusal: result code and detail byte. -/
abbrev Refused := Option (ResultCode × Byte)

/-- A check that refuses with a code and detail 0 when it fails. -/
def need (ok : Bool) (code : ResultCode) : Refused := if ok then none else some (code, 0)

/-- A parameter check: BAD_FIELD with the parameter's number (R169). -/
def badParam (n : Option Nat) : Refused := n.map fun i => (.badField, BitVec.ofNat 8 i)

/-- The first failing check settles the result (R169). -/
def firstRefusal : List Refused → Refused
  | [] => none
  | some r :: _ => some r
  | none :: rest => firstRefusal rest

/-- A command checked, carried out when no check fails, and settled (R169). -/
def State.judge (c : CellId) (refusal : Refused) (act : State → State) (s : State) : State :=
  match refusal with
  | some r => s.settle c r.1 r.2
  | none => (act s).settle c .done 0

/-- A command on a feed or an output: a target outside 0 to 3 is BAD_FIELD with detail 0 (R169). -/
def State.onQuad (w : CellWrite) (act : Fin 4 → State → State) (s : State) : State :=
  match targetQuad w with
  | none => s.settle w.cell .badField 0
  | some t => act t s

/-- The kind of a region in an OVERLAP detail (R171). -/
def Region.kind : Region → Nat
  | .control => 1
  | .ingest _ => 2
  | .slots _ => 3
  | .window _ => 4
  | .slate _ => 5

/-- Two slate regions may coincide when first page and length are equal (R171). -/
def MapEntry.sharesSlate (e d : MapEntry) : Bool :=
  e.region.kind = 5 && d.region.kind = 5 && e.first = d.first && e.pages = d.pages

/-- The kind that a region meets: its own when it leaves the 40-bit space, else the lowest kind among the
regions it overlaps (R171; the choice among several is a DESIGN CHOICE, log entry 14). -/
def MapEntry.meets (others : List MapEntry) (e : MapEntry) : Option Nat :=
  if 2 ^ 28 < e.first + e.pages then some e.region.kind
  else ((others.filter fun d => e.overlaps d && !e.sharesSlate d).map (·.region.kind)).min?

def overlapAt (n : Option Nat) : Refused := n.map fun i => (.overlap, BitVec.ofNat 8 i)

/-- The map without the entries that `own` names. -/
def State.mapWithout (own : Region → Bool) (s : State) : List MapEntry :=
  s.addressMap.filter fun e => !own e.region

/-- The region check of CONFIGURE_FEED: the window, then the slot region, each against the map without the
feed's old entries and against the other (R171, R172). -/
def State.feedOverlap (f : FeedId) (c : FeedConfig) (s : State) : Refused :=
  let others := s.mapWithout fun r => r = .ingest f || r = .slots f
  match feedEntries f c with
  | [window, slots] =>
    overlapAt ((window.meets (others ++ [slots])).or (slots.meets (others ++ [window])))
  | _ => none

/-- The region check of CONFIGURE_OUTPUT: the window against the map without the output's old window and
slate region (R171, R176; log entry 15). -/
def State.windowOverlap (o : OutId) (c : OutputConfig) (s : State) : Refused :=
  overlapAt ((windowEntry o c).meets (s.mapWithout fun r => r = .window o || r = .slate o))

/-- The region check of SET_SLATE: the slate region against the map without the output's old one (R171,
R180). -/
def State.slateOverlap (o : OutId) (page : Option Page) (s : State) : Refused :=
  match page, s.outputs[o].config with
  | some p, some c => overlapAt ((slateEntry o c p).meets (s.mapWithout fun r => r = .slate o))
  | _, _ => none

/-- A feed and an output fit: equal width, and the ratio of line counts (R90). The ranges and evenness of
the line counts are parameter checks. -/
def fits (fc : FeedConfig) (c : OutputConfig) : Bool :=
  c.width = fc.width && fc.lines ≤ 2 * c.lines && c.lines ≤ 2 * fc.lines

/-! ## Feed commands (9.2) -/

/-- The checks of CONFIGURE_FEED (R172). -/
def State.refuseConfigureFeed (f : FeedId) (w : CellWrite) (s : State) : Refused :=
  firstRefusal [
    need (s.feeds[f].cadence.state = .disabled) .wrongState,
    need (!s.feedInUse f) .inUse,
    badParam (feedParamBad w),
    s.feedOverlap f (feedConfigOf w)]

/-- CONFIGURE_FEED carried out (R4, R27, R44, R172). -/
def Feed.configured (c : FeedConfig) (x : Feed) : Feed :=
  { x with config := some c, cadence := { x.cadence with irregularLeft := c.threshold } }

def State.configureFeed (w : CellWrite) (s : State) : State :=
  s.onQuad w fun f s =>
    s.judge w.cell (s.refuseConfigureFeed f w) fun s =>
      (s.modifyFeed f (Feed.configured (feedConfigOf w))).mark (.feed f)

/-- ENABLE_FEED carried out (R6, R28, R173). -/
def State.startFeed (f : FeedId) (c : FeedConfig) (s : State) : State :=
  (s.modifyFeed f fun x =>
    { x with phase := .awaiting, cadence := x.cadence.enabled c }).feedEvent f (.seeking false)

def State.enableFeed (w : CellWrite) (s : State) : State :=
  s.onQuad w fun f s =>
    match s.feeds[f].config with
    | none => s.settle w.cell .wrongState 0
    | some c =>
      s.judge w.cell (need (s.feeds[f].cadence.state = .disabled) .wrongState)
        fun s => (s.startFeed f c).mark (.feed f)

/-- DISABLE_FEED carried out (R25, R45, R174). -/
def State.endFeed (f : FeedId) (s : State) : State :=
  (s.modifyFeed f fun x =>
    let y := x.disabledIngest
    { y with cadence := y.cadence.disabled }).notify (feedNotice f)

def State.disableFeed (w : CellWrite) (s : State) : State :=
  s.onQuad w fun f s =>
    s.judge w.cell
      (firstRefusal [need (s.feeds[f].cadence.state ≠ .disabled) .wrongState,
        need (!s.feedInUse f) .inUse])
      fun s => (s.endFeed f).mark (.feed f)

/-- REARM_MONITOR carried out (R44, R175). -/
def Feed.rearmed (n : Nat) (x : Feed) : Feed :=
  { x with
    config := x.config.map fun c => { c with threshold := n }
    cadence := { x.cadence with irregularLeft := n } }

def State.rearmMonitor (w : CellWrite) (s : State) : State :=
  s.onQuad w fun f s =>
    s.judge w.cell
      (firstRefusal [need s.feeds[f].config.isSome .wrongState,
        badParam (firstBad [(1, 1 ≤ field w.w1 0 8)])])
      fun s => (s.modifyFeed f (Feed.rearmed (field w.w1 0 8))).mark (.feed f)

/-! ## Output commands (9.3) -/

/-- The geometry check of CONFIGURE_OUTPUT: made when the source feed is configured (R176). -/
def State.geometryKnown (c : OutputConfig) (s : State) : Bool :=
  match s.feeds[c.feed].config with
  | some fc => fits fc c
  | none => true

/-- The geometry check of START_OUTPUT: the source feed is configured and fits (R177). -/
def State.geometryHolds (c : OutputConfig) (s : State) : Bool :=
  match s.feeds[c.feed].config with
  | some fc => fits fc c
  | none => false

/-- The checks of CONFIGURE_OUTPUT (R176). -/
def State.refuseConfigureOutput (o : OutId) (w : CellWrite) (s : State) : Refused :=
  firstRefusal [
    need (!s.outputs[o].live) .wrongState,
    badParam (outputParamBad w),
    need (s.geometryKnown (outputConfigOf w)) .geometry,
    s.windowOverlap o (outputConfigOf w)]

/-- CONFIGURE_OUTPUT carried out (R51, R129, R130, R176). -/
def Output.configured (c : OutputConfig) (fill : Colour) (x : Output) : Output :=
  { x with state := .stopped, config := some c, modes := Modes.configured (clampFill c.clip fill) }

def State.configureOutput (w : CellWrite) (s : State) : State :=
  s.onQuad w fun o s =>
    s.judge w.cell (s.refuseConfigureOutput o w) fun s =>
      ((s.dropFrozen o).modifyOutput o (Output.configured (outputConfigOf w) (fillOf w))).mark (.output o)

/-- START_OUTPUT carried out (R53, R141, R177). -/
def State.beginStarting (o : OutId) (c : OutputConfig) (s : State) : State :=
  s.modifyOutput o fun x =>
    { x with state := .starting, modes := x.modes.started s.feeds[c.feed].cadence.state }

def State.startOutput (w : CellWrite) (s : State) : State :=
  s.onQuad w fun o s =>
    match s.outputs[o].config with
    | none => s.settle w.cell .wrongState 0
    | some c =>
      s.judge w.cell
        (firstRefusal [need (s.outputs[o].state = .stopped) .wrongState,
          need s.banks[c.bank].loading.isNone .inUse,
          need (s.geometryHolds c) .geometry])
        (State.beginStarting o c)

/-- STOP_OUTPUT carried out from RUNNING (R59, R84, R119, R142). -/
def State.stopRunning (o : OutId) (s : State) : State :=
  let s1 := s.modifyOutput o fun x =>
    { x with state := .stopped, gen := Generator.idle, modes := x.modes.stopped }
  (((s1.giveUpContexts o).modifyBuilder o LineBuilder.invalidateAll).takeHead o).flush

/-- STOP_OUTPUT carried out from STARTING (R59, R84, R119, R142). -/
def State.stopStarting (o : OutId) (s : State) : State :=
  s.modifyOutput o fun x => { x with state := .stopped, modes := x.modes.stopped }

def State.stopOutput (w : CellWrite) (s : State) : State :=
  s.onQuad w fun o s =>
    s.judge w.cell (need s.outputs[o].live .wrongState) fun s =>
      if s.outputs[o].state = .running then s.stopRunning o else s.stopStarting o

/-- The commands that are taken when the output is configured, in STOPPED, STARTING or RUNNING. -/
def Output.isConfigured (x : Output) : Bool := x.state ≠ .unconfigured

def State.setResponse (w : CellWrite) (s : State) : State :=
  s.onQuad w fun o s =>
    s.judge w.cell
      (firstRefusal [need s.outputs[o].isConfigured .wrongState, badParam (responseParamBad w)])
      fun s => (s.modifyModes o fun m =>
        { m with table := responseTableOf w, holdLimit := field w.w2 0 16 }).mark (.output o)

/-- SET_SLATE carried out (R143, R180). -/
def Modes.slated (w : CellWrite) (m : Modes) : Modes :=
  { (m.ready (injectionOf w) (field w.w1 16 8)) with slatePage := slatePageOf w }

def State.setSlate (w : CellWrite) (s : State) : State :=
  s.onQuad w fun o s =>
    s.judge w.cell
      (firstRefusal [need s.outputs[o].isConfigured .wrongState, badParam (slateParamBad w),
        s.slateOverlap o (slatePageOf w)])
      fun s => (s.modifyModes o (Modes.slated w)).mark (.output o)

def State.forceMode (w : CellWrite) (s : State) : State :=
  s.onQuad w fun o s =>
    s.judge w.cell
      (firstRefusal [need s.outputs[o].live .wrongState,
        badParam (firstBad [(1, (forcedMode w).isSome)])])
      fun s => (s.modifyModes o fun m =>
        { m with manual := true, pending := forcedMode w }).mark (.output o)

/-- The present state of the feed that an output is bound to; DISABLED for an output without one. -/
def State.boundState (o : OutId) (s : State) : FeedState :=
  match s.outputs[o].config with
  | some c => s.feeds[c.feed].cadence.state
  | none => .disabled

def State.releaseMode (w : CellWrite) (s : State) : State :=
  s.onQuad w fun o s =>
    s.judge w.cell (need s.outputs[o].live .wrongState)
      fun s => (s.modifyModes o (Modes.released (s.boundState o))).mark (.output o)

/-! ## The coefficient load (9.4) -/

/-- LOAD_COEFFICIENTS taken: the bank is LOADING and its table read joins class 3 (R94, R183). The cell
stays unsettled. -/
def State.beginLoad (k : BankId) (c : CellId) (page : Page) (s : State) : State :=
  { s with
    banks := s.banks.set k { s.banks[k] with loading := some c }
    class3 := s.class3 ++ [.table k page] }

def State.loadCoefficients (w : CellWrite) (s : State) : State :=
  match targetBank w with
  | none => s.settle w.cell .badField 0
  | some k =>
    match firstRefusal [need (!s.bankInUse k && s.banks[k].loading.isNone) .inUse,
        badParam (firstBad [(1, pageOk w.w1)])] with
    | some r => s.settle w.cell r.1 r.2
    | none => s.beginLoad k w.cell (w.w1.setWidth 28)

/-! ## Condition commands (9.5) -/

/-- The bits of a half-word parameter. -/
def halfWord (w : Word) : Conds := w.setWidth 16

/-- The conditional clear of one word (R193). -/
def State.clearWord (r : RecordSel) (snapshot mask : Conds) (s : State) : State :=
  match r with
  | .feed f =>
    let m := mask &&& feedConds
    let conflict := clearConflicts s.feeds[f].word snapshot m
    let s1 := s.modifyFeed f fun x => { x with word := clearedWord x.word snapshot m }
    if conflict then s1.setDevice clearConflict else s1
  | .output o =>
    let m := mask &&& outputConds
    let conflict := clearConflicts s.outputs[o].word snapshot m
    let s1 := s.modifyOutput o fun x => { x with word := clearedWord x.word snapshot m }
    if conflict then s1.setDevice clearConflict else s1
  | .device =>
    let m := mask &&& deviceConds
    let conflict := clearConflicts s.deviceWord snapshot m
    let s1 := s.putDeviceWord (clearedWord s.deviceWord snapshot m)
    if conflict then s1.setDevice clearConflict else s1

def State.clearConditions (w : CellWrite) (s : State) : State :=
  match selectorOf (field w.w1 0 8) with
  | none => s.settle w.cell .badField 1
  | some r => (s.clearWord r (halfWord w.w2) (halfWord w.w3)).settle w.cell .done 0

/-- The mask of one word replaced; its record is marked, and the summary and the notice line follow
(R190). -/
def State.setMask (r : RecordSel) (mask : Conds) (s : State) : State :=
  match r with
  | .feed f => (s.mark (.feed f)).modifyFeed f fun x => { x with mask := mask &&& feedConds }
  | .output o => (s.mark (.output o)).modifyOutput o fun x => { x with mask := mask &&& outputConds }
  | .device => State.refresh { s.mark .device with deviceMask := mask &&& deviceMaskBits }

def State.setMasks (w : CellWrite) (s : State) : State :=
  match selectorOf (field w.w1 0 8) with
  | none => s.settle w.cell .badField 1
  | some r => (s.setMask r (halfWord w.w2)).settle w.cell .done 0

/-! ## Device commands (9.6) -/

/-- IDENTIFY: the device record is marked, and the result waits on its write (R186). -/
def State.identify (w : CellWrite) (s : State) : State :=
  match s.cells[w.cell] with
  | none => s
  | some a => (s.putCell w.cell (some { a with identify := .waiting })).mark .device

/-- A feed at DEVICE_CLEAR: initial, with its record's update count kept (R26, R27, R188, R190, R195). -/
def Feed.cleared (x : Feed) : Feed := { Feed.initial with updates := x.updates }

/-- An output at DEVICE_CLEAR: initial, with its record's update count kept (R51, R60, R85, R120, R128,
R195). -/
def Output.cleared (x : Output) : Output := { Output.initial with updates := x.updates }

/-- A forwarded burst at DEVICE_CLEAR: an ingest write loses its account, so that its response marks
nothing, sets no condition and sends no notice (R26). -/
def Forwarded.cleared (r : Forwarded) : Forwarded :=
  match r.kind with
  | .ingestWrite _ => { r with kind := .other }
  | _ => r

/-- A granted burst at DEVICE_CLEAR: fills, slate reads and table reads are abandoned (R93, R164). -/
def Granted.cleared (g : Granted) : Granted :=
  { g with
    work := match g.work with
      | .bus r => .bus r.cleared
      | .fetch _ _ => .discarded
      | .table _ _ => .discarded
      | .record r bytes cells => .record r bytes cells
      | .trace o i bytes => .trace o i bytes
      | .result c word => .result c word
      | .discarded => .discarded }

/-- An ACTIVE cell that DEVICE_CLEAR cuts short: ABORTED, at once or after the word already granted (R187). -/
def ActiveCommand.aborted (a : ActiveCommand) : ActiveCommand :=
  if a.stage = .granted then { a with identify := .no, abortDue := true }
  else { a with identify := .no, settled := some (.aborted, 0) }

/-- A class 3 request at DEVICE_CLEAR: traces are discarded, table reads withdrawn, and a result word that
waits has its code replaced by ABORTED (R83, R164, R187). -/
def State.clearedRequest (s : State) : Housekeeping → Option Housekeeping
  | .trace _ _ _ => none
  | .table _ _ => none
  | .record r => some (.record r)
  | .result c word =>
    match s.cells[c] with
    | some a => some (.result c (resultWord .aborted a.tag 0))
    | none => some (.result c word)

/-- The clear of every block (R187, first table), with the black answers of R120 already given. -/
def State.clearBlocks (s : State) : State :=
  { s with
    feeds := s.feeds.map Feed.cleared
    outputs := s.outputs.map Output.cleared
    cache := Cache.initial
    banks := s.banks.map fun k => { k with loading := none }
    class1 := Vector.replicate 4 []
    class2 := s.class2.map Forwarded.cleared
    class3 := s.class3.filterMap s.clearedRequest
    granted := s.granted.map Granted.cleared
    waitingSlate := []
    pointer := 0
    deviceWord := 0
    deviceMask := 0
    notice := false
    resetCause := .command }

/-- Step 3 of R187: every other ACTIVE cell receives ABORTED. -/
def State.abortCells (c : CellId) (s : State) : State :=
  (allCells.filter (· ≠ c)).foldl (fun s d =>
    match s.cells[d] with
    | none => s
    | some a => (s.putCell d (some a.aborted)).requestResult d) s

/-- DEVICE_CLEAR taken from cell `w.cell` (R187). -/
def State.deviceClear (w : CellWrite) (s : State) : State :=
  let s1 := allOutputs.foldl (fun s o => s.blackOut o) s
  ((s1.clearBlocks.abortCells w.cell).markAll.settle w.cell .done 0).flush

/-! ## Taking a command (R166 to R169) -/

/-- A command that has just been taken from its cell (R168). -/
def ActiveCommand.fresh (tag : Byte) : ActiveCommand where
  tag := tag
  settled := none
  hostAnswered := false
  stage := .unrequested
  identify := .no
  abortDue := false

/-- The command of a code, carried out or refused (R169, R202). -/
def State.runCommand (code : Byte) (w : CellWrite) (s : State) : State :=
  match code.toNat with
  | 1 => s.configureFeed w
  | 2 => s.enableFeed w
  | 3 => s.disableFeed w
  | 4 => s.rearmMonitor w
  | 5 => s.configureOutput w
  | 6 => s.startOutput w
  | 7 => s.stopOutput w
  | 8 => s.setResponse w
  | 9 => s.setSlate w
  | 10 => s.forceMode w
  | 11 => s.releaseMode w
  | 12 => s.loadCoefficients w
  | 13 => s.clearConditions w
  | 14 => s.setMasks w
  | 15 => s.identify w
  | 16 => s.deviceClear w
  | _ => s.settle w.cell .unknown 0

/-- The cell becomes ACTIVE with a command not yet settled (R168). -/
def State.takeCell (w : CellWrite) (s : State) : State :=
  s.putCell w.cell (some (ActiveCommand.fresh w.tag))

/-- A whole-cell write: a command taken from an IDLE cell and carried out by `run`, or an overrun of an
ACTIVE one (R166, R168). -/
def State.commandCell (w : CellWrite) (run : CellWrite → State → State) (s : State) : State :=
  if s.cells[w.cell].isSome then s.setDevice commandOverrun else run w (s.takeCell w)

end Sys2Proof.Machine
end

