-- ==== Sys2Proof/Machine/MemoryPath.lean ====
section
/-! DEFINITION. The memory path (08): where the Path Router sends a burst, its acceptance at the Bus
Port, the offer of control block writes to the Command Unit, the arbiter's grant, and what each response
at the Memory Port does. -/

namespace Sys2Proof.Machine

/-! ## Routing (R147, R148, R154) -/

/-- Where a burst goes at its acceptance. -/
inductive Route where
  | forwarded (kind : BusKind)
  | controlWrite
  | ingestWrite (f : FeedId)
  | ingestRead (f : FeedId)
  | outputRead (o : OutId)
  | refused
  | windowWrite
  deriving DecidableEq, Repr

/-- The slots and frame lines that a burst into a slot region touches (R152). -/
def slotLines (c : FeedConfig) (b : Burst) : List (SlotId × Nat) :=
  let lo := b.low - c.slotPage.toNat * 4096
  let hi := b.stop - c.slotPage.toNat * 4096
  allSlots.flatMap fun t =>
    let from_ := max lo (t.val * c.windowSize) - t.val * c.windowSize
    let to_ := min hi ((t.val + 1) * c.windowSize) - t.val * c.windowSize
    if t.val < c.slots && from_ < to_ then
      ((linesTouched c.stride from_ to_).filter fun y => y < c.lines).map fun y => (t, y)
    else []

/-- The lines whose notices a burst into feed `f`'s slot region sends at its response: those of a write;
a read sends none (R152; log entry 24). -/
def State.slotKind (f : FeedId) (b : Burst) (s : State) : BusKind :=
  match s.feeds[f].config with
  | some c => .slot f (if b.write then slotLines c b else [])
  | none => .other

/-- The route of a burst by the class of its first byte (R148), with the tests of R154 for the windows. -/
def State.route (b : Burst) (s : State) : Route :=
  match s.classOf b.addr with
  | none => .forwarded .other
  | some .control => if b.write then .controlWrite else .forwarded .control
  | some (.slots f) => .forwarded (s.slotKind f b)
  | some (.slate _) => .forwarded .slate
  | some (.ingest f) =>
    if b.kind ≠ .incr then .refused else if b.write then .ingestWrite f else .ingestRead f
  | some (.window o) =>
    if b.kind ≠ .incr then .refused else if b.write then .windowWrite else .outputRead o

/-! ## Acceptance (R157) -/

/-- Whether the read queue of the window that a read lies in has a place; a read of any burst type waits for
one (R108, R157). -/
def State.queueRoom (b : Burst) (s : State) : Bool :=
  match s.classOf b.addr with
  | some (.window o) => s.outputs[o].builder.queue.length < Config.queueLimit
  | _ => true

/-- Whether the Bus Port's limits allow a burst (R157). -/
def State.roomFor (b : Burst) (s : State) : Bool :=
  if b.write then s.writes.length < Config.busLimit
  else s.reads.length < Config.busLimit && s.queueRoom b

/-- The burst that waits at the address channel of `b`. -/
def State.heldFor (b : Burst) (s : State) : Option Burst := if b.write then s.heldWrite else s.heldRead

/-- A burst is accepted when no other waits before it on its channel and the limits allow it (R157). -/
def State.admits (b : Burst) (s : State) : Bool :=
  (s.heldFor b = none || s.heldFor b = some b) && s.roomFor b

def State.putHeld (b : Burst) (x : Option Burst) (s : State) : State :=
  if b.write then { s with heldWrite := x } else { s with heldRead := x }

/-- A burst that is not accepted holds its address channel until it is presented again and accepted; one
behind a held burst stays with its master (R157; log entry 10). -/
def State.hold (b : Burst) (s : State) : State := if s.heldFor b = none then s.putHeld b (some b) else s

/-! ## Control block writes (R151, R166 to R168) -/

/-- A write of class Control block as one cell meets it: taken as a command or an overrun, malformed, or
apart from it. -/
def State.offerCell (base : Nat) (b : Burst) (c : CellId) (s : State) : State :=
  if b.coversCell base c then
    s.commandCell (b.cellWrite base c) (State.runCommand (b.cellCode base c))
  else if b.touchesCell base c then s.setDevice commandForm
  else s

/-- The cells that a write covers whole. -/
def wholeCells (b : Burst) (base : Nat) : List CellId := allCells.filter fun c => b.coversCell base c

/-- A write of class Control block: forwarded, and offered cell by cell (R151, R166, R167, R168). -/
def State.controlWrite (b : Burst) (s : State) : State :=
  let base := s.controlBase
  let whole := wholeCells b base
  let taken := whole.filter fun c => s.cells[c].isNone
  let overruns := whole.filter fun c => s.cells[c].isSome
  allCells.foldl (fun s c => s.offerCell base b c) (s.forward b b .control taken overruns)

/-- A burst refused at the Path Router, answered SLVERR, with its device condition (R155, R156). -/
def State.refuse (b : Burst) (cond : Conds) (s : State) : State :=
  let s1 :=
    if b.write then s.openWrite b (some .slverr)
    else s.openRead b (zeroBeats .slverr b) true
  (s1.setDevice cond).flush

/-- An accepted burst goes where its route says (R150 to R156). -/
def State.dispatch (b : Burst) (s : State) : State :=
  match s.route b with
  | .forwarded kind => s.forward b b kind [] []
  | .controlWrite => s.controlWrite b
  | .ingestWrite f => s.ingestWrite f b
  | .ingestRead f => s.ingestRead f b
  | .outputRead o => s.outputRead o b
  | .refused => s.refuse b burstRefused
  | .windowWrite => s.refuse b windowWrite

/-- A burst presented at the Bus Port (R148, R157). -/
def State.presentBurst (b : Burst) (s : State) : State :=
  if s.admits b then (s.putHeld b none).dispatch b else s.hold b

/-- A whole-cell write of one command, with `run` the command's meaning (R151, R166, R168). -/
def State.acceptCommand (b : Burst) (w : CellWrite) (run : CellWrite → State → State) (s : State) :
    State :=
  let taken := if s.cells[w.cell].isNone then [w.cell] else []
  let overruns := if s.cells[w.cell].isSome then [w.cell] else []
  (s.forward b b .control taken overruns).commandCell w run

/-- A whole-cell write of the command with code `code` presented at the Bus Port. -/
def State.hostCommand (code : Byte) (run : CellWrite → State → State) (w : CellWrite) (s : State) :
    State :=
  let b := w.burst s.controlBase code
  if s.admits b then (s.putHeld b none).acceptCommand b w run else s.hold b

/-! ## The arbiter (R151, R161, R162, R168) -/

/-- The outputs in the order of the round-robin pointer (R161). -/
def fromPointer (p : OutId) : List OutId := [p, p + 1, p + 2, p + 3]

/-- The output whose oldest class 1 request is granted next (R161). -/
def State.nextFetch (s : State) : Option OutId :=
  (fromPointer s.pointer).find? fun o => !s.class1[o].isEmpty

/-- A burst granted joins the outstanding ones (R161). -/
def State.addGranted (id : BitVec 9) (write : Bool) (work : Work) (s : State) : State :=
  { s with granted := s.granted ++ [⟨id, write, work⟩] }

/-- The Memory Port ID of class 1 requests of output `o`, and of class 3 requests (R150). -/
def fetchId (o : OutId) : BitVec 9 := BitVec.ofNat 9 (256 + o.val)
def class3Id : BitVec 9 := 260

/-- The grant of output `o`'s oldest class 1 request; the pointer moves past the output (R161). -/
def State.grantFetch (o : OutId) (s : State) : State :=
  match s.class1[o] with
  | [] => s
  | f :: rest =>
    State.addGranted (fetchId o) false (.fetch o f)
      { s with class1 := s.class1.set o rest, pointer := o + 1 }

/-- Whether a burst is a host read of the control block that overlaps the written bytes (R151). Only a read classed
Control block counts: of one of another class, such as Other, that crosses a 4 KiB boundary into the control block
(R148), the manual does not say whether it is held or holds (DESIGN CHOICE, unsafe, log entry 40). -/
def Forwarded.readsOver (base : Nat) (written : Option (Nat × Nat)) (r : Forwarded) : Bool :=
  match written with
  | none => false
  | some (off, n) => r.kind = .control && !r.burst.write && r.burst.touches (base + off) (base + off + n)

/-- Whether the head of class 2 is held by a granted record or trace write (R151). -/
def State.holdsRead (r : Forwarded) (s : State) : Bool :=
  s.granted.any fun g => r.readsOver s.controlBase g.work.written

/-- The grant of a class 2 request: its Bus Port ID with the ninth bit 0 (R150, R161). -/
def State.grantForwarded (r : Forwarded) (rest : List Forwarded) (s : State) : State :=
  State.addGranted (r.burst.id.setWidth 9) r.burst.write (.bus r) { s with class2 := rest }

/-- The forwarded burst of a granted one. -/
def Granted.forwarded (g : Granted) : Option Forwarded :=
  match g.work with
  | .bus r => some r
  | _ => none

/-- The forwarded bursts granted and not yet answered. -/
def State.forwardedOut (s : State) : List Forwarded := s.granted.filterMap Granted.forwarded

/-- Whether the head of class 3 is held: a record or trace write by a granted host read that overlaps it
(R151), a result word by an overrunning write of its cell accepted and not answered (R168). -/
def State.holdsThird (h : Housekeeping) (s : State) : Bool :=
  match h with
  | .record _ | .trace _ _ _ => s.forwardedOut.any fun r => r.readsOver s.controlBase h.written
  | .result c _ => (s.class2 ++ s.forwardedOut).any fun r => r.overruns.contains c
  | .table _ _ => false

/-- The cells whose IDENTIFY waits for a grant of the device record (R186). -/
def State.identifying (s : State) : List CellId :=
  allCells.filter fun c =>
    match s.cells[c] with
    | some a => a.identify = .waiting
    | none => false

/-- The IDENTIFY of a cell moves on (R186). -/
def State.setIdentify (x : IdentifyStage) (c : CellId) (s : State) : State :=
  match s.cells[c] with
  | none => s
  | some a => s.putCell c (some { a with identify := x })

/-- The grant of a status record's write: the update count advances, the content is taken (R195), and a
device record answers the IDENTIFY commands that wait (R186). -/
def State.grantRecord (r : RecordSel) (s : State) : State :=
  let cells := if r = .device then s.identifying else []
  let s1 := cells.foldl (fun s c => s.setIdentify .granted c) (s.countUpdate r)
  s1.addGranted class3Id true (.record r (s1.recordContent r) cells)

/-- The grant of a result word's write (R170). -/
def State.grantResult (c : CellId) (word : Word) (s : State) : State :=
  let s1 := match s.cells[c] with
    | some a => s.putCell c (some { a with stage := .granted })
    | none => s
  s1.addGranted class3Id true (.result c word)

/-- The grant of the oldest class 3 request `h` (R161, R162). -/
def State.grantThird (h : Housekeeping) (rest : List Housekeeping) (s : State) : State :=
  let s1 := { s with class3 := rest }
  match h with
  | .record r => s1.grantRecord r
  | .trace o i content => s1.addGranted class3Id true (.trace o i content)
  | .result c word => s1.grantResult c word
  | .table k page => s1.addGranted class3Id false (.table k page)

/-- Class 3 takes the grant when its head is not held. -/
def State.offerThird (s : State) : State :=
  match s.class3 with
  | [] => s
  | h :: rest => if s.holdsThird h then s else s.grantThird h rest

/-- One decision of the arbiter (R161): class 1, else class 2 unless its head is held, else class 3. -/
def State.grant (s : State) : State :=
  if Config.grantLimit ≤ s.granted.length then s
  else match s.nextFetch with
    | some o => s.grantFetch o
    | none =>
      match s.class2 with
      | [] => s.offerThird
      | r :: rest => if s.holdsRead r then s.offerThird else s.grantForwarded r rest

/-! ## Responses (R150, R163) -/

def matchesGrant (r : Reply) (g : Granted) : Bool :=
  match r with
  | .write id _ => g.write && g.id = id
  | .read id _ => !g.write && g.id = id

/-- The host's command write of cell `c` has been answered (R170). -/
def State.hostAnswered (c : CellId) (s : State) : State :=
  match s.cells[c] with
  | none => s
  | some a => (s.putCell c (some { a with hostAnswered := true })).requestResult c

/-- What the response to a forwarded burst does besides going up the Bus Port (R163). -/
def State.busEffect (r : Forwarded) (resp : Resp) (s : State) : State :=
  match r.kind with
  | .other | .ingestRead => s
  | .control => r.cells.foldl (fun s c => s.hostAnswered c) s
  | .slot f lines => lines.foldl (fun s p => s.notify (anyLineNotice f p.1 p.2)) s
  | .slate => s.releaseSlate
  | .ingestWrite a => s.ingestResponse a resp

/-- The response to a forwarded write (R150, R152, R153, R163). -/
def State.busWritten (r : Forwarded) (resp : Resp) (s : State) : State :=
  ((s.answerWrite r.serial resp).busEffect r resp).flush

/-- The response to a forwarded read (R150). -/
def State.busReadBack (r : Forwarded) (beats : List ReadBeat) (s : State) : State :=
  (s.answerRead r.serial beats).flush

/-- The settling of an IDENTIFY whose record has been written (R186). -/
def State.identified (c : CellId) (s : State) : State :=
  match s.cells[c] with
  | none => s
  | some a =>
    if a.identify = .granted && a.settled.isNone then (s.setIdentify .no c).settle c .done 0 else s

/-- The response to a status record's write (R163, R186). -/
def State.recordWritten (cells : List CellId) (s : State) : State :=
  cells.foldl (fun s c => s.identified c) s

/-- The response to a result word's write: the cell returns to IDLE, or its ABORTED word is requested
(R168, R170, R187). -/
def State.resultWritten (c : CellId) (s : State) : State :=
  match s.cells[c] with
  | none => s
  | some a =>
    if a.abortDue then
      (s.putCell c (some
        { a with settled := some (.aborted, 0), stage := .unrequested, abortDue := false })).requestResult c
    else s.putCell c none

/-- The bank is READY again, with `table` when the load succeeded (R94). -/
def State.endLoad (k : BankId) (table : CoefTable) (s : State) : State :=
  { s with banks := s.banks.set k { table := table, loading := none } }

/-- The completion of a table read for the cell that loads bank `k` (R94, R183). -/
def State.loadComplete (k : BankId) (beats : List ReadBeat) (s : State) : State :=
  match s.banks[k].loading with
  | none => s
  | some c =>
    let old := s.banks[k].table
    if anyError beats then (s.endLoad k old).settle c .fetchFailed 0
    else
      let table := tableOf (beatData beats)
      match table.firstInvalid with
      | some p => (s.endLoad k old).settle c .coefInvalid (BitVec.ofNat 8 p.val)
      | none => (s.endLoad k table).settle c .done 0

/-- The response to a class 1 request (R111, R124). -/
def State.fetched (o : OutId) (f : Fetch) (beats : List ReadBeat) (s : State) : State :=
  match f with
  | .fill e _ _ => s.fillAnswer e beats
  | .slate i _ _ => (s.slateAnswer o i beats).flush

/-- What a response brings: the response code of a write, the beats of a read. -/
def replyResp : Reply → Resp
  | .write _ resp => resp
  | .read _ _ => .okay
def replyBeats : Reply → List ReadBeat
  | .write _ _ => []
  | .read _ beats => beats

/-- The response to a granted burst goes to the block whose burst it answers (R163, R164). -/
def State.finish (w : Work) (r : Reply) (s : State) : State :=
  match w with
  | .bus x => if x.burst.write then s.busWritten x (replyResp r) else s.busReadBack x (replyBeats r)
  | .fetch o f => s.fetched o f (replyBeats r)
  | .record _ _ cells => s.recordWritten cells
  | .trace _ _ _ => s
  | .result c _ => s.resultWritten c
  | .table k _ => s.loadComplete k (replyBeats r)
  | .discarded => s

/-- A response at the Memory Port answers the oldest granted burst of its ID and direction (R150; log
entry 8); with none, it is a fault (log entry 9). -/
def State.takeReply (r : Reply) (s : State) : Host.Outcome State Fault Refusal :=
  match s.granted.find? (matchesGrant r) with
  | none => .fault .unsolicitedResponse
  | some g => .next (State.finish g.work r { s with granted := s.granted.eraseP (matchesGrant r) })

end Sys2Proof.Machine
end

