-- ==== Sys2Proof/Machine/Reset.lean ====
section
/-! DEFINITION. Power-up, the reset line and the release of reset (10, R199 and R200), and what the part
does with other events while it is held in reset. -/

namespace Sys2Proof.Machine

/-- What a step of the part answers. -/
abbrev Answer := Host.Outcome State Fault Refusal

/-- While the part is held in reset, no event but those of the reset itself has an effect (R46, R164, R200;
log entry 3). -/
def State.unlessReset (act : State → Answer) (s : State) : Answer :=
  if s.resetting then .next s else act s

/-- Every block takes its initial state, and the part is held in reset (R26, R27, R60, R62, R85, R93, R120,
R127, R128, R160, R164, R168, R188, R190, R195). The reset cause and the strap value stay until the release,
and the queue of waiting events is outside the part. -/
def State.enterReset (powerEdge : Bool) (s : State) : State :=
  { State.initial with
    powerEdge := powerEdge
    resetCause := s.resetCause
    strap := s.strap
    pending := s.pending }

/-- A rising edge of power-good (R200). -/
def State.powerUp (s : State) : State := s.enterReset true

/-- A low level of the reset line (R200): a power-good edge of the same reset is kept. -/
def State.resetLine (s : State) : State := s.enterReset (s.resetting && s.powerEdge)

/-- The release of reset: the straps are sampled, the cause is set, the nine records are marked (R195, R199,
R200). -/
def State.release (straps : BitVec 10) (s : State) : State :=
  State.markAll
    { s with
      resetting := false
      powerEdge := false
      resetCause := if s.powerEdge then .power else .line
      strap := straps }

end Sys2Proof.Machine
end

