-- ==== Sys2Proof/Machine/BusBursts.lean ====
section
/-! DEFINITION. The meanings of the rows that are bursts at the Bus Port (08). A burst is handled by the
class of its first byte, whatever row names it (R148; log entry 7). -/

namespace Sys2Proof.Machine

/-- A burst presented at the Bus Port. -/
def busRow (b : Burst) (s : State) : Answer := s.unlessReset fun s => .next (s.presentBurst b)

/-- MALFORMED_COMMAND_WRITE (R167). -/
def execMalformedCommandWrite (b : Burst) (s : State) : Answer := busRow b s

/-- COMMAND_OVERRUN (R168). -/
def execCommandOverrun (b : Burst) (s : State) : Answer := busRow b s

/-- CONTROL_BLOCK_WRITE (R151). -/
def execControlBlockWrite (b : Burst) (s : State) : Answer := busRow b s

/-- PASSTHROUGH (R150, R152). -/
def execPassthrough (b : Burst) (s : State) : Answer := busRow b s

/-- SLATE_REGION_WRITE (R153). -/
def execSlateRegionWrite (b : Burst) (s : State) : Answer := busRow b s

/-- INGEST_WRITE (R7). -/
def execIngestWrite (b : Burst) (s : State) : Answer := busRow b s

/-- INGEST_READ (R8). -/
def execIngestRead (b : Burst) (s : State) : Answer := busRow b s

/-- OUTPUT_READ (R108). -/
def execOutputRead (b : Burst) (s : State) : Answer := busRow b s

/-- REFUSED_BURST (R155). -/
def execRefusedBurst (b : Burst) (s : State) : Answer := busRow b s

/-- OUTPUT_WINDOW_WRITE (R156). -/
def execOutputWindowWrite (b : Burst) (s : State) : Answer := busRow b s

end Sys2Proof.Machine
end

