-- ==== Sys2Proof/Machine/CellCommands.lean ====
section
/-! DEFINITION. The meanings of the rows that are commands of a cell (09): each is the whole-cell write that
brings the command, accepted at the Bus Port, taken by the Command Unit, and carried out or refused. The
command codes are those of R202. -/

namespace Sys2Proof.Machine

/-- The row of a command with its code and its meaning. -/
def cellRow (code : Byte) (run : CellWrite → State → State) (w : CellWrite) (s : State) : Answer :=
  s.unlessReset fun s => .next (s.hostCommand code run w)

/-- CONFIGURE_FEED (R172). -/
def execConfigureFeed (w : CellWrite) (s : State) : Answer := cellRow 1 State.configureFeed w s

/-- ENABLE_FEED (R173). -/
def execEnableFeed (w : CellWrite) (s : State) : Answer := cellRow 2 State.enableFeed w s

/-- DISABLE_FEED (R174). -/
def execDisableFeed (w : CellWrite) (s : State) : Answer := cellRow 3 State.disableFeed w s

/-- REARM_MONITOR (R175). -/
def execRearmMonitor (w : CellWrite) (s : State) : Answer := cellRow 4 State.rearmMonitor w s

/-- CONFIGURE_OUTPUT (R176). -/
def execConfigureOutput (w : CellWrite) (s : State) : Answer := cellRow 5 State.configureOutput w s

/-- START_OUTPUT (R177). -/
def execStartOutput (w : CellWrite) (s : State) : Answer := cellRow 6 State.startOutput w s

/-- STOP_OUTPUT (R178). -/
def execStopOutput (w : CellWrite) (s : State) : Answer := cellRow 7 State.stopOutput w s

/-- SET_RESPONSE (R131, R179). -/
def execSetResponse (w : CellWrite) (s : State) : Answer := cellRow 8 State.setResponse w s

/-- SET_SLATE (R143, R180). -/
def execSetSlate (w : CellWrite) (s : State) : Answer := cellRow 9 State.setSlate w s

/-- FORCE_MODE (R139, R181). -/
def execForceMode (w : CellWrite) (s : State) : Answer := cellRow 10 State.forceMode w s

/-- RELEASE_MODE (R140, R182). -/
def execReleaseMode (w : CellWrite) (s : State) : Answer := cellRow 11 State.releaseMode w s

/-- LOAD_COEFFICIENTS (R94, R183). -/
def execLoadCoefficients (w : CellWrite) (s : State) : Answer := cellRow 12 State.loadCoefficients w s

/-- CLEAR_CONDITIONS (R184, R193). -/
def execClearConditions (w : CellWrite) (s : State) : Answer := cellRow 13 State.clearConditions w s

/-- SET_MASKS (R185, R190). -/
def execSetMasks (w : CellWrite) (s : State) : Answer := cellRow 14 State.setMasks w s

/-- IDENTIFY (R186). -/
def execIdentify (w : CellWrite) (s : State) : Answer := cellRow 15 State.identify w s

/-- DEVICE_CLEAR (R187). -/
def execDeviceClear (w : CellWrite) (s : State) : Answer := cellRow 16 State.deviceClear w s

/-- UNKNOWN_COMMAND (R169): a whole-cell write of any code; a code that is one of the sixteen is that
command. -/
def execUnknownCommand (code : Byte) (w : CellWrite) (s : State) : Answer :=
  cellRow code (State.runCommand code) w s

end Sys2Proof.Machine
end

