-- ==== Sys2Proof/Machine/Events.lean ====
section
/-! DEFINITION. The meanings of the rows that are the part's own events and its pins (03, 06, 10). An own
event that is not due has no effect (log entry 5). -/

namespace Sys2Proof.Machine

/-- LINE_BUILD_COMPLETION of output `o` (R116). -/
def execLineBuildCompletion (o : OutId) (s : State) : Answer :=
  s.unlessReset fun s => .next (s.buildCompletion o)

/-- REFERENCE_PULSE (R48). -/
def execReferencePulse (r : Ref) (s : State) : Answer :=
  s.unlessReset fun s => .next (s.referencePulse r)

/-- REFERENCE_ABSENT (R49). -/
def execReferenceAbsent (r : Ref) (s : State) : Answer :=
  s.unlessReset fun s => .next (s.referenceAbsent r)

/-- UNDERFLOW of output `o`'s generator (R52). -/
def execUnderflow (o : OutId) (s : State) : Answer := s.unlessReset fun s => .next (s.underflow o)

/-- LOSS_TIMER_EXPIRY of feed `f` (R40). -/
def execLossTimerExpiry (f : FeedId) (s : State) : Answer :=
  s.unlessReset fun s => .next (s.lossExpiry f)

/-- POWER_UP (R200). -/
def execPowerUp (s : State) : Answer := .next s.powerUp

/-- RESET_LINE (R26, R200). -/
def execResetLine (s : State) : Answer := .next s.resetLine

/-- RESET_RELEASE (R199, R200); the part must be in reset. -/
def execResetRelease (straps : BitVec 10) (s : State) : Answer :=
  .next (if s.resetting then s.release straps else s)

/-- TICK (R39, R46, R52): the events still due at the present tick happen, then the clocks move (log entry
4). -/
def execTick (s : State) : Answer := s.unlessReset fun s => .next s.settleTick.advance

end Sys2Proof.Machine
end

