-- ==== Sys2Proof/Machine/PortResponses.lean ====
section
/-! DEFINITION. The meanings of the rows that are responses at the Memory Port (08, R163), and of the
arbiter's grant (R161). Each response answers the oldest granted burst of its ID and direction (log entry
8). -/

namespace Sys2Proof.Machine

/-- A response at the Memory Port. -/
def replyRow (r : Reply) (s : State) : Answer := s.unlessReset (State.takeReply r)

/-- INGEST_WRITE_RESPONSE (R20, R23). -/
def execIngestWriteResponse (id : BitVec 8) (resp : Resp) (s : State) : Answer :=
  replyRow (.write (id.setWidth 9) resp) s

/-- FORWARDED_RESPONSE (R150). -/
def execForwardedResponse (r : Reply) (s : State) : Answer := replyRow r s

/-- SLOT_REGION_WRITE_RESPONSE (R152). -/
def execSlotRegionWriteResponse (id : BitVec 8) (resp : Resp) (s : State) : Answer :=
  replyRow (.write (id.setWidth 9) resp) s

/-- SLATE_WRITE_RESPONSE (R153). -/
def execSlateWriteResponse (id : BitVec 8) (resp : Resp) (s : State) : Answer :=
  replyRow (.write (id.setWidth 9) resp) s

/-- MEMORY_PORT_GRANT (R161). -/
def execMemoryPortGrant (s : State) : Answer := s.unlessReset fun s => .next s.grant

/-- STATUS_RECORD_WRITE_RESPONSE (R163, R186). -/
def execStatusRecordWriteResponse (resp : Resp) (s : State) : Answer :=
  replyRow (.write class3Id resp) s

/-- RESULT_WORD_RESPONSE (R170, R187). -/
def execResultWordResponse (resp : Resp) (s : State) : Answer := replyRow (.write class3Id resp) s

/-- COEFFICIENT_LOAD_COMPLETION (R94). -/
def execCoefficientLoadCompletion (beats : List ReadBeat) (s : State) : Answer :=
  replyRow (.read class3Id beats) s

/-- LINE_FILL_RESPONSE (R124). -/
def execLineFillResponse (o : OutId) (beats : List ReadBeat) (s : State) : Answer :=
  replyRow (.read (fetchId o) beats) s

/-- SLATE_READ_RESPONSE (R111). -/
def execSlateReadResponse (o : OutId) (beats : List ReadBeat) (s : State) : Answer :=
  replyRow (.read (fetchId o) beats) s

end Sys2Proof.Machine
end

