-- ==== Sys2Proof/Machine/Dispatch.lean ====
section
/-! DEFINITION. One arm per row of spec/opcode_table.json: each calls the row's meaning. -/

namespace Sys2Proof.Machine

def exec (i : Instr) (s : State) : Host.Outcome State Fault Refusal :=
  match i with
  | .configureFeed w => Sys2Proof.Machine.execConfigureFeed w s
  | .enableFeed w => Sys2Proof.Machine.execEnableFeed w s
  | .disableFeed w => Sys2Proof.Machine.execDisableFeed w s
  | .rearmMonitor w => Sys2Proof.Machine.execRearmMonitor w s
  | .configureOutput w => Sys2Proof.Machine.execConfigureOutput w s
  | .startOutput w => Sys2Proof.Machine.execStartOutput w s
  | .stopOutput w => Sys2Proof.Machine.execStopOutput w s
  | .setResponse w => Sys2Proof.Machine.execSetResponse w s
  | .setSlate w => Sys2Proof.Machine.execSetSlate w s
  | .forceMode w => Sys2Proof.Machine.execForceMode w s
  | .releaseMode w => Sys2Proof.Machine.execReleaseMode w s
  | .loadCoefficients w => Sys2Proof.Machine.execLoadCoefficients w s
  | .clearConditions w => Sys2Proof.Machine.execClearConditions w s
  | .setMasks w => Sys2Proof.Machine.execSetMasks w s
  | .identify w => Sys2Proof.Machine.execIdentify w s
  | .deviceClear w => Sys2Proof.Machine.execDeviceClear w s
  | .unknownCommand code w => Sys2Proof.Machine.execUnknownCommand code w s
  | .malformedCommandWrite b => Sys2Proof.Machine.execMalformedCommandWrite b s
  | .commandOverrun b => Sys2Proof.Machine.execCommandOverrun b s
  | .controlBlockWrite b => Sys2Proof.Machine.execControlBlockWrite b s
  | .passthrough b => Sys2Proof.Machine.execPassthrough b s
  | .slateRegionWrite b => Sys2Proof.Machine.execSlateRegionWrite b s
  | .ingestWrite b => Sys2Proof.Machine.execIngestWrite b s
  | .ingestRead b => Sys2Proof.Machine.execIngestRead b s
  | .outputRead b => Sys2Proof.Machine.execOutputRead b s
  | .refusedBurst b => Sys2Proof.Machine.execRefusedBurst b s
  | .outputWindowWrite b => Sys2Proof.Machine.execOutputWindowWrite b s
  | .ingestWriteResponse id resp => Sys2Proof.Machine.execIngestWriteResponse id resp s
  | .forwardedResponse r => Sys2Proof.Machine.execForwardedResponse r s
  | .slotRegionWriteResponse id resp => Sys2Proof.Machine.execSlotRegionWriteResponse id resp s
  | .slateWriteResponse id resp => Sys2Proof.Machine.execSlateWriteResponse id resp s
  | .memoryPortGrant => Sys2Proof.Machine.execMemoryPortGrant s
  | .statusRecordWriteResponse resp => Sys2Proof.Machine.execStatusRecordWriteResponse resp s
  | .resultWordResponse resp => Sys2Proof.Machine.execResultWordResponse resp s
  | .coefficientLoadCompletion beats => Sys2Proof.Machine.execCoefficientLoadCompletion beats s
  | .lineFillResponse o beats => Sys2Proof.Machine.execLineFillResponse o beats s
  | .slateReadResponse o beats => Sys2Proof.Machine.execSlateReadResponse o beats s
  | .lineBuildCompletion o => Sys2Proof.Machine.execLineBuildCompletion o s
  | .referencePulse r => Sys2Proof.Machine.execReferencePulse r s
  | .referenceAbsent r => Sys2Proof.Machine.execReferenceAbsent r s
  | .underflow o => Sys2Proof.Machine.execUnderflow o s
  | .lossTimerExpiry f => Sys2Proof.Machine.execLossTimerExpiry f s
  | .powerUp => Sys2Proof.Machine.execPowerUp s
  | .resetLine => Sys2Proof.Machine.execResetLine s
  | .resetRelease straps => Sys2Proof.Machine.execResetRelease straps s
  | .tick => Sys2Proof.Machine.execTick s

end Sys2Proof.Machine
end

