-- ==== Sys2Proof/Safety.lean ====
section
/-! DEFINITION. The words in which the statements speak: the pieces of the state that a step may change,
the conditions under which the Bus Port and the Command Unit take a command at once, the content of a
settled cell, and what the manual promises of every state that the part reaches. -/

namespace Sys2Proof.Machine

/-! ## Frames -/

/-- The pieces of the state. Every field of `State` is one of them, or one for each element. -/
inductive Part where
  | reset
  | time
  | ref (r : Ref)
  | feed (f : FeedId)
  | output (o : OutId)
  | cache
  | bank (k : BankId)
  | cell (c : CellId)
  | deviceWord
  | deviceMask
  | deviceUpdates
  | class1 (o : OutId)
  | class2
  | class3
  | pointer
  | granted
  | waitingSlate
  | reads
  | writes
  | heldRead
  | heldWrite
  | serial
  | busOut
  | queue
  deriving DecidableEq, Repr

/-- A piece of the state is the same in two states. The notice line goes with the device word, which decides
it together with the device mask (R192). -/
def State.same (s t : State) : Part → Prop
  | .reset => t.resetting = s.resetting ∧ t.powerEdge = s.powerEdge ∧ t.resetCause = s.resetCause ∧
      t.strap = s.strap
  | .time => t.tick = s.tick
  | .ref r => t.ref r = s.ref r
  | .feed f => t.feeds[f] = s.feeds[f]
  | .output o => t.outputs[o] = s.outputs[o]
  | .cache => t.cache = s.cache
  | .bank k => t.banks[k] = s.banks[k]
  | .cell c => t.cells[c] = s.cells[c]
  | .deviceWord => t.deviceWord = s.deviceWord ∧ t.notice = s.notice
  | .deviceMask => t.deviceMask = s.deviceMask
  | .deviceUpdates => t.deviceUpdates = s.deviceUpdates
  | .class1 o => t.class1[o] = s.class1[o]
  | .class2 => t.class2 = s.class2
  | .class3 => t.class3 = s.class3
  | .pointer => t.pointer = s.pointer
  | .granted => t.granted = s.granted
  | .waitingSlate => t.waitingSlate = s.waitingSlate
  | .reads => t.reads = s.reads
  | .writes => t.writes = s.writes
  | .heldRead => t.heldRead = s.heldRead
  | .heldWrite => t.heldWrite = s.heldWrite
  | .serial => t.nextSerial = s.nextSerial
  | .busOut => t.busOut = s.busOut
  | .queue => t.pending = s.pending

/-- Only the pieces named may differ between two states. -/
def State.changesOnly (ps : List Part) (s t : State) : Prop := ∀ p, p ∉ ps → s.same t p

/-- The piece that a status record shows. -/
def RecordSel.part : RecordSel → Part
  | .device => .deviceWord
  | .feed f => .feed f
  | .output o => .output o

/-- Class 3 keeps its requests, and behind them only marks of records have joined it: of the device record, and
of feeds and outputs among the pieces named (R162, R195). -/
def State.onlyMarks (ps : List Part) (s t : State) : Prop :=
  ∃ rs : List RecordSel, t.class3 = s.class3 ++ rs.map .record ∧ ∀ r ∈ rs, r = .device ∨ r.part ∈ ps

/-- The four outputs and the four feeds as pieces. -/
def outputParts : List Part := [.output 0, .output 1, .output 2, .output 3]
def feedParts : List Part := [.feed 0, .feed 1, .feed 2, .feed 3]

/-! ## The Bus Port and the Command Unit -/

/-- The Bus Port takes the burst at once: the part runs, no burst waits on its channel, and the limits allow
it: fewer than 32 outstanding on its channel, and for a read of an output's window fewer than 16 in that
output's read queue (R108, R157). -/
def State.open_ (b : Burst) (s : State) : Prop :=
  s.resetting = false ∧
    (if b.write then s.heldWrite = none ∧ s.writes.length < 32
     else s.heldRead = none ∧ s.reads.length < 32 ∧
      ∀ o, s.classOf b.addr = some (.window o) → s.outputs[o].builder.queue.length < 16)

/-- The limits keep the burst out: 32 outstanding on its channel, or, for a read of an output's window, 16 in
that output's read queue (R108, R157). -/
def State.fullFor (b : Burst) (s : State) : Prop :=
  if b.write then 32 ≤ s.writes.length
  else 32 ≤ s.reads.length ∨
    ∃ o, s.classOf b.addr = some (.window o) ∧ 16 ≤ s.outputs[o].builder.queue.length

/-- A whole-cell write is taken at once as a command: the write channel is free and the cell is IDLE (R157,
R166, R168). -/
def State.ready (w : CellWrite) (s : State) : Prop :=
  s.resetting = false ∧ s.heldWrite = none ∧ s.writes.length < Config.busLimit ∧ s.cells[w.cell] = none

/-- The pieces that every whole-cell write changes: its cell, its place among the accepted writes, its class
2 request, the marks of the records it changes. -/
def CellParts (w : CellWrite) : List Part := [.cell w.cell, .writes, .class2, .class3, .serial]

/-- The cell of a command whose result is settled while its own write is not answered yet (R168, R170). -/
def settledCell (w : CellWrite) (code : ResultCode) (detail : Byte) : Cell :=
  some { ActiveCommand.fresh w.tag with settled := some (code, detail) }

/-- A whole-cell write has been forwarded unchanged as the newest class 2 request, and its response is owed
to the host (R151, R166). -/
def State.wrote (code : Byte) (w : CellWrite) (s t : State) : Prop :=
  t.writes = s.writes ++ [⟨s.nextSerial, w.id, none⟩] ∧
    t.class2 = s.class2 ++ [⟨s.nextSerial, w.burst s.controlBase code, .control, [w.cell], []⟩] ∧
    t.nextSerial = s.nextSerial + 1

/-- A command has been carried out: its write forwarded, its cell settled DONE, and nothing changed but the
write's own pieces and those named; class 3 receives marks alone. -/
def State.carried (code : Byte) (w : CellWrite) (ps : List Part) (s t : State) : Prop :=
  s.wrote code w t ∧ t.cells[w.cell] = settledCell w .done 0 ∧ s.changesOnly (CellParts w ++ ps) t ∧
    s.onlyMarks ps t

/-- The state without its newest accepted write and that write's class 2 request. -/
def State.withoutWrite (serial : Nat) (s : State) : State :=
  { s with writes := s.writes.dropLast, class2 := s.class2.dropLast, nextSerial := serial }

/-- A record's write is requested in class 3, which is its mark (R195). -/
def State.marked (r : RecordSel) (t : State) : Prop := Housekeeping.record r ∈ t.class3

/-! ## Holds at the Memory Port (R151, R168) -/

/-- The place of a status record in the control block (R201). -/
def recordPlace : RecordSel → Nat
  | .device => 0
  | .feed f => 0x40 + 64 * f.val
  | .output o => 0x140 + 64 * o.val

/-- The place of an entry of a trace ring in the control block (R82). -/
def tracePlace (o : OutId) (i : Nat) : Nat := 0x1000 + 0x400 * o.val + 16 * i

/-- A read classed Control block overlaps `n` bytes of the control block from `place` on (R151; only reads so
classed: log entry 40). -/
def State.readsBytes (x : Forwarded) (place n : Nat) (s : State) : Prop :=
  x.kind = .control ∧ x.burst.write = false ∧ x.burst.low < s.controlBase + place + n ∧
    s.controlBase + place < x.burst.stop

/-- The head of class 2 is held: a record's or a trace entry's write that it overlaps is granted and not
answered (R151). -/
def State.readHeld (x : Forwarded) (s : State) : Prop :=
  ∃ g ∈ s.granted,
    (∃ r bytes cells, g.work = .record r bytes cells ∧ s.readsBytes x (recordPlace r) 64) ∨
    (∃ o i bytes, g.work = .trace o i bytes ∧ s.readsBytes x (tracePlace o i) 16)

/-- The head of class 3 is held: a record's or a trace entry's write while a read that overlaps it is granted
and not answered (R151); a result word while a write that overran its cell is accepted and not answered (R168).
-/
def State.thirdHeld (h : Housekeeping) (s : State) : Prop :=
  match h with
  | .record r => ∃ g ∈ s.granted, ∃ x, g.work = .bus x ∧ s.readsBytes x (recordPlace r) 64
  | .trace o i _ => ∃ g ∈ s.granted, ∃ x, g.work = .bus x ∧ s.readsBytes x (tracePlace o i) 16
  | .result c _ => ∃ x, (x ∈ s.class2 ∨ ∃ g ∈ s.granted, g.work = .bus x) ∧ c ∈ x.overruns
  | .table _ _ => False

/-! ## The sixteen commands -/

/-- The row of a command code (R202). -/
def commandRow (code : Byte) (w : CellWrite) : Instr :=
  match code.toNat with
  | 1 => .configureFeed w
  | 2 => .enableFeed w
  | 3 => .disableFeed w
  | 4 => .rearmMonitor w
  | 5 => .configureOutput w
  | 6 => .startOutput w
  | 7 => .stopOutput w
  | 8 => .setResponse w
  | 9 => .setSlate w
  | 10 => .forceMode w
  | 11 => .releaseMode w
  | 12 => .loadCoefficients w
  | 13 => .clearConditions w
  | 14 => .setMasks w
  | 15 => .identify w
  | 16 => .deviceClear w
  | _ => .unknownCommand code w

/-! ## The address map and the checks of a command (R147, R169 to R187, R204) -/

/-- The length in pages of a window of `lines` lines (R5, R147). -/
def pagesOf (lines stride : Nat) : Nat := (lines * stride + 4095) / 4096

/-- The address map holds the entry `e`: the control block's two pages, the window and the slot region of a
configured feed, the window of a configured output, and its slate region when the slate page is present (R147,
R199). -/
def State.inMap (e : MapEntry) (s : State) : Prop :=
  e = ⟨.control, 256 * s.strap.toNat, 2⟩ ∨
  (∃ (f : FeedId) (c : FeedConfig), s.feeds[f].config = some c ∧
    (e = ⟨.ingest f, c.windowPage.toNat, pagesOf c.lines c.stride⟩ ∨
      e = ⟨.slots f, c.slotPage.toNat, c.slots * pagesOf c.lines c.stride⟩)) ∨
  ∃ (o : OutId) (c : OutputConfig), s.outputs[o].config = some c ∧
    (e = ⟨.window o, c.windowPage.toNat, pagesOf c.lines c.stride⟩ ∨
      ∃ page, s.outputs[o].modes.slatePage = some page ∧
        e = ⟨.slate o, page.toNat, pagesOf c.lines c.stride⟩)

/-- The entry holds the page of an address (R148). -/
def MapEntry.holdsAddr (a : Addr) (e : MapEntry) : Prop :=
  e.first ≤ a.toNat / 4096 ∧ a.toNat / 4096 < e.first + e.pages

/-- The kinds of R171. -/
def regionKind : Region → Byte
  | .control => 1
  | .ingest _ => 2
  | .slots _ => 3
  | .window _ => 4
  | .slate _ => 5

/-- Two regions share no page, or are slate regions with the same pages (R171). -/
def MapEntry.apart (e d : MapEntry) : Prop :=
  d.first + d.pages ≤ e.first ∨ e.first + e.pages ≤ d.first ∨
    (regionKind e.region = 5 ∧ regionKind d.region = 5 ∧ e.first = d.first ∧ e.pages = d.pages)

/-- One check of R169: what it asks, and the results that it may settle when it fails. -/
structure Check where
  passes : Prop
  result : ResultCode × Byte → Prop

/-- A check that settles one code with one detail byte. -/
def check (code : ResultCode) (detail : Nat) (passes : Prop) : Check :=
  ⟨passes, fun r => r = (code, BitVec.ofNat 8 detail)⟩

/-- The first check that fails gives the result; `none` when every check passes (R169). -/
def settledBy : List Check → Option (ResultCode × Byte) → Prop
  | [], v => v = none
  | c :: rest, v => (c.passes ∧ settledBy rest v) ∨ (¬ c.passes ∧ ∃ r, v = some r ∧ c.result r)

/-- The region check: each placed region lies in the address space and overlaps nothing in the map but the
regions `own` that the command replaces, nor the other placed region; the detail is the own kind of a region
that leaves the space, or the kind of a region met (R171; which of several: log entry 14). -/
def State.regionCheck (own : Region → Prop) (placed : List MapEntry) (s : State) : Check where
  passes := ∀ e ∈ placed, e.first + e.pages ≤ 2 ^ 28 ∧
    ∀ d, (s.inMap d ∧ ¬ own d.region) ∨ (d ∈ placed ∧ d ≠ e) → e.apart d
  result r := r.1 = .overlap ∧ ∃ e ∈ placed,
    (2 ^ 28 < e.first + e.pages ∧ r.2 = regionKind e.region) ∨
    (e.first + e.pages ≤ 2 ^ 28 ∧ ∃ d, ((s.inMap d ∧ ¬ own d.region) ∨ (d ∈ placed ∧ d ≠ e)) ∧
      ¬ e.apart d ∧ r.2 = regionKind d.region)

/-- A feed and an output of `width` and `lines` fit, as far as the commands check it for geometry (R90). -/
def FeedConfig.fitsOutput (width lines : Nat) (fc : FeedConfig) : Prop :=
  width = fc.width ∧ fc.lines ≤ 2 * lines ∧ lines ≤ 2 * fc.lines

/-- The parameters of a command in order of number, each with its range (R4, R27, R50, R172 to R185, R202,
R204). Parameters that take every value of their field are left out. An odd line count with an interlaced rate
code fails in the line count's place (log entry 19). -/
def parametersOf (code : Byte) (w : CellWrite) : List (Nat × Prop) :=
  match code.toNat with
  | 1 => [
      (1, 256 ≤ field w.w1 0 16 ∧ field w.w1 0 16 ≤ 2048 ∧ field w.w1 0 16 % 8 = 0),
      (2, 128 ≤ field w.w1 16 16 ∧ field w.w1 16 16 ≤ 1088 ∧
        (8 ≤ field w.w2 0 8 → field w.w2 0 8 ≤ 10 → field w.w1 16 16 % 2 = 0)),
      (3, field w.w2 0 8 ≤ 10),
      (4, 8 ≤ field w.w2 0 8 → field w.w2 0 8 ≤ 10 → field w.w2 8 8 ≤ 1),
      (5, 3 ≤ field w.w2 16 8 ∧ field w.w2 16 8 ≤ 8),
      (6, field w.w3 0 16 % 64 = 0 ∧ 4 * field w.w1 0 16 ≤ field w.w3 0 16 ∧ field w.w3 0 16 ≤ 16320),
      (7, w.w4.toNat < 2 ^ 28),
      (8, w.w5.toNat < 2 ^ 28),
      (9, 1 ≤ field w.w3 16 8 ∧ field w.w3 16 8 ≤ 15),
      (10, 3 ≤ field w.w2 24 8 ∧ field w.w2 24 8 ≤ 8),
      (11, 2 ≤ field w.w3 24 8),
      (12, 1 ≤ field w.w6 0 8)]
  | 4 => [(1, 1 ≤ field w.w1 0 8)]
  | 5 => [
      (1, field w.w1 0 8 ≤ 3),
      (2, 256 ≤ field w.w2 0 16 ∧ field w.w2 0 16 ≤ 2048 ∧ field w.w2 0 16 % 8 = 0),
      (3, 128 ≤ field w.w2 16 16 ∧ field w.w2 16 16 ≤ 1088 ∧
        (8 ≤ field w.w1 8 8 → field w.w1 8 8 ≤ 10 → field w.w2 16 16 % 2 = 0)),
      (4, field w.w1 8 8 ∈ [2, 5, 8, 3, 6, 9]),
      (5, 8 ≤ field w.w1 8 8 → field w.w1 8 8 ≤ 10 → field w.w1 16 8 ≤ 1),
      (6, (field w.w1 8 8 ∈ [2, 5, 8] ∧ field w.w1 24 8 = 0) ∨
        (field w.w1 8 8 ∈ [3, 6, 9] ∧ field w.w1 24 8 = 1)),
      (7, field w.w3 0 16 % 64 = 0 ∧ 4 * field w.w2 0 16 ≤ field w.w3 0 16 ∧ field w.w3 0 16 ≤ 16320),
      (8, w.w4.toNat < 2 ^ 28),
      (10, field w.w3 16 8 ≤ 1),
      (11, field w.w3 24 8 ≤ 1),
      (12, field w.w5 24 8 ≤ 1)]
  | 8 => [
      (1, field w.w1 0 8 ≤ 3), (2, field w.w1 8 8 ≤ 3), (3, field w.w1 16 8 ≤ 3), (4, field w.w1 24 8 ≤ 3),
      (5, field w.w2 0 16 ≤ 255)]
  | 9 => [
      (1, field w.w1 0 8 ≤ 1),
      (2, field w.w1 0 8 = 1 → w.w2.toNat < 2 ^ 28),
      (3, field w.w1 8 8 ≤ 3 ∧ (field w.w1 8 8 ≠ 0 → field w.w1 0 8 = 1))]
  | 10 => [(1, 1 ≤ field w.w1 0 8 ∧ field w.w1 0 8 ≤ 3)]
  | 12 => [(1, w.w1.toNat < 2 ^ 28)]
  | 13 | 14 => [(1, field w.w1 0 8 ≤ 8)]
  | _ => []

/-- No output bound to feed `f` is STARTING or RUNNING (R172, R174). -/
def State.feedFree (f : FeedId) (s : State) : Prop :=
  ∀ (o : OutId) (c : OutputConfig), s.outputs[o].config = some c → c.feed = f →
    s.outputs[o].state ≠ .starting ∧ s.outputs[o].state ≠ .running

/-- No STARTING or RUNNING output names the bank, and no load of it is in progress (R183). -/
def State.bankFree (k : BankId) (s : State) : Prop :=
  (∀ (o : OutId) (c : OutputConfig), s.outputs[o].config = some c → c.bank = k →
    s.outputs[o].state ≠ .starting ∧ s.outputs[o].state ≠ .running) ∧ s.banks[k].loading = none

/-- The checks of a command in the order of R169: the target's range, its state, its use, the parameters by
number, the geometry, the regions (R131, R139, R140, R143, R171 to R187). -/
def State.checks (code : Byte) (w : CellWrite) (s : State) : List Check :=
  let t : Fin 4 := Fin.ofNat 4 w.target.toNat
  let bank : BankId := Fin.ofNat 2 w.target.toNat
  let feed := s.feeds[t]
  let out := s.outputs[t]
  let quad := check .badField 0 (w.target.toNat ≤ 3)
  let state := check .wrongState 0
  let params := (parametersOf code w).map fun p => check .badField p.1 p.2
  match code.toNat with
  | 1 =>
    let pages := pagesOf (field w.w1 16 16) (field w.w3 0 16)
    [quad, state (feed.cadence.state = .disabled), check .inUse 0 (s.feedFree t)] ++ params ++
      [s.regionCheck (fun r => r = .ingest t ∨ r = .slots t)
        [⟨.ingest t, w.w5.toNat, pages⟩, ⟨.slots t, w.w4.toNat, field w.w2 16 8 * pages⟩]]
  | 2 => [quad, state (feed.config ≠ none ∧ feed.cadence.state = .disabled)]
  | 3 => [quad, state (feed.cadence.state ≠ .disabled), check .inUse 0 (s.feedFree t)]
  | 4 => [quad, state (feed.config ≠ none)] ++ params
  | 5 =>
    [quad, state (out.state = .unconfigured ∨ out.state = .stopped)] ++ params ++
      [check .geometry 0 (∀ fc, s.feeds[(Fin.ofNat 4 (field w.w1 0 8) : FeedId)].config = some fc →
          fc.fitsOutput (field w.w2 0 16) (field w.w2 16 16)),
        s.regionCheck (fun r => r = .window t ∨ r = .slate t)
          [⟨.window t, w.w4.toNat, pagesOf (field w.w2 16 16) (field w.w3 0 16)⟩]]
  | 6 =>
    [quad, state (out.config ≠ none ∧ out.state = .stopped),
      check .inUse 0 (∀ c, out.config = some c → s.banks[c.bank].loading = none),
      check .geometry 0 (∀ c, out.config = some c →
        ∃ fc, s.feeds[c.feed].config = some fc ∧ fc.fitsOutput c.width c.lines)]
  | 7 | 11 => [quad, state (out.state = .starting ∨ out.state = .running)]
  | 8 => [quad, state (out.state ≠ .unconfigured)] ++ params
  | 9 =>
    [quad, state (out.state ≠ .unconfigured)] ++ params ++
      [s.regionCheck (fun r => r = .slate t)
        (match out.config with
          | some c => if field w.w1 0 8 = 1 then [⟨.slate t, w.w2.toNat, pagesOf c.lines c.stride⟩] else []
          | none => [])]
  | 10 => [quad, state (out.state = .starting ∨ out.state = .running)] ++ params
  | 12 => [check .badField 0 (w.target.toNat ≤ 1), check .inUse 0 (s.bankFree bank)] ++ params
  | 13 | 14 => params
  | 15 | 16 => []
  | _ => [check .unknown 0 False]

/-! ## What every reached state keeps -/

/-- The limits of the queues and counts: 32 reads, 32 writes (R157), 64 granted bursts (R161), 16 bursts in
each read queue (R108). -/
def State.withinLimits (s : State) : Prop :=
  s.reads.length ≤ Config.busLimit ∧ s.writes.length ≤ Config.busLimit ∧
    s.granted.length ≤ Config.grantLimit ∧
    ∀ o : OutId, s.outputs[o].builder.queue.length ≤ Config.queueLimit

/-- The bursts accepted and not fully answered bear serial numbers that have been given out: the model's own
numbering of them (R157; log entry 36). -/
def State.serialsHold (s : State) : Prop :=
  (∀ x ∈ s.reads, x.serial < s.nextSerial) ∧ ∀ x ∈ s.writes, x.serial < s.nextSerial

/-- The device word holds the seven device conditions and exactly the summary positions that the feed and
output words and their masks give (R188, R191), and the notice line is high exactly while a position of it is
set whose mask mark is set (R192). -/
def State.noticeHolds (s : State) : Prop :=
  s.deviceWord = (s.deviceWord &&& deviceConds) ||| s.summaries ∧
    s.notice = decide (s.deviceWord &&& s.deviceMask ≠ 0)

/-- Each status record has at most one request waiting in class 3 (R162, R195), and each position of a trace
ring at most one entry (R83). -/
def State.requestsOnce (s : State) : Prop :=
  (∀ r : RecordSel, (s.class3.filter fun h => h = .record r).length ≤ 1) ∧
    ∀ (o : OutId) (i : Nat), (s.class3.filter fun h => h.isTrace o i).length ≤ 1

/-- What the manual promises of one feed: the phase is IDLE exactly in DISABLED, and a slot is current exactly
in CAPTURING (R6); the FILLING records stand in the current slot (R18); the loss timer runs only in SEEKING
and LOCKED (R39, R40); out of DISABLED the feed is configured and E lies between Ps × 256 − Ps and Ps × 256 +
Ps (R33); the irregularity counter never exceeds the threshold (R43); the geometry is in its ranges (R4); the
history holds at most one record for each slot and parity (R18). -/
structure Feed.Holds (x : Feed) : Prop where
  idle : x.phase = .idle ↔ x.cadence.state = .disabled
  current : x.phase = .capturing ↔ x.current.isSome = true
  filling : ∀ r ∈ x.history, r.status = .filling → x.current = some r.slot
  timer : x.cadence.lossTimer.isSome = true → x.cadence.state = .seeking ∨ x.cadence.state = .locked
  configured : x.cadence.state ≠ .disabled → x.config.isSome = true
  period : ∀ c, x.config = some c → x.cadence.state ≠ .disabled →
    c.period * 256 - c.period ≤ x.cadence.period ∧ x.cadence.period ≤ c.period * 256 + c.period
  monitor : ∀ c, x.config = some c → x.cadence.irregularLeft ≤ c.threshold
  geometry : ∀ c, x.config = some c →
    256 ≤ c.width ∧ c.width ≤ 2048 ∧ 4 * c.width ≤ c.stride ∧ c.stride ≤ 16320 ∧ 128 ≤ c.lines ∧
      c.lines ≤ 1088 ∧ 3 ≤ c.slots ∧ c.slots ≤ 8
  places : x.history.Pairwise fun a b => a.slot ≠ b.slot ∨ a.parity ≠ b.parity

/-- Every feed keeps them. -/
def State.feedsHold (s : State) : Prop := ∀ f : FeedId, s.feeds[f].Holds

/-- Along every history the smoothed stamps increase (R35). -/
def State.stampsRise (s : State) : Prop :=
  ∀ f : FeedId, s.feeds[f].history.Pairwise fun a b => 0 < Stamp.since b.stamp a.stamp

/-- The stamps of a feed's history, the present tick and, where the next stamp is made from it, the last
smoothed stamp lie within a quarter of the range of stamps: within 2^38 ticks, more than two hours and a half
(R10's reading of differences, R35). -/
def State.stampsNear (s : State) : Prop :=
  ∀ f : FeedId, s.feeds[f].cadence.state ≠ .disabled → ∃ base : Stamp,
    (BitVec.ofNat 48 (s.tick.toNat * 256) - base).toNat < 2 ^ 46 ∧
    (s.feeds[f].cadence.seedPending = false → (s.feeds[f].cadence.lastSmoothed - base).toNat < 2 ^ 46) ∧
    ∀ r ∈ s.feeds[f].history, (r.stamp - base).toNat < 2 ^ 46

/-- The three held contexts, the frozen one and the retired one. -/
def Contexts.all (c : Contexts) : List (Option Context) :=
  [c.heldWhole, c.heldTop, c.heldBottom, c.frozen, c.retired]

/-- A generator is COUNTING exactly while its output is RUNNING (R52); an output holds a configuration
exactly out of UNCONFIGURED (R51); an output that is not RUNNING holds no context, no frozen context and no
frame decision, and a RUNNING one holds exactly one context for each parity of its scan (R62), of which its
generator's next parity is one (R55); each of its contexts has a weight of at most 256, and names two records in
CONVERT and FREEZE and none otherwise (R61); the frozen context is a copy of a CONVERT context (R135). -/
structure Output.Holds (x : Output) : Prop where
  counting : x.gen.counting = true ↔ x.state = .running
  configured : x.config.isSome = true ↔ x.state ≠ .unconfigured
  contexts : x.state ≠ .running →
    x.ctx.heldWhole = none ∧ x.ctx.heldTop = none ∧ x.ctx.heldBottom = none ∧ x.ctx.frozen = none ∧
      x.ctx.decision = none
  scan : ∀ c, x.state = .running → x.config = some c → ∀ p : Parity, (x.ctx.held p).isSome = true ↔
    p = firstParity c.order ∨ p = (firstParity c.order).other
  next : ∀ c, x.state = .running → x.config = some c →
    x.gen.next = firstParity c.order ∨ x.gen.next = (firstParity c.order).other
  contents : ∀ y, some y ∈ x.ctx.all → y.weight ≤ 256 ∧
    ((y.kind = .convert ∨ y.kind = .freeze) → y.a.isSome = true ∧ y.b.isSome = true) ∧
    (y.kind ≠ .convert → y.kind ≠ .freeze → y.a = none ∧ y.b = none)
  frozen : ∀ y, x.ctx.frozen = some y → y.kind = .convert

/-- Every output keeps R51, R52, R55, R61, R62 and R135. -/
def State.outputsHold (s : State) : Prop := ∀ o : OutId, s.outputs[o].Holds

/-- The entries of the address map lie within the 40-bit space and overlap nowhere, but for outputs that share
one slate region (R147, R171); in reset the map holds the control block alone (R164). -/
def State.mapHolds (s : State) : Prop :=
  (∀ e ∈ s.addressMap, e.first + e.pages ≤ 2 ^ 28) ∧
    s.addressMap.Pairwise (fun e d => e.overlaps d = false ∨ e.sharesSlate d = true) ∧
    (s.resetting = true → s.addressMap.length = 1)

/-! ## Pins (R75 to R77) -/

/-- How many pins a context has on record `n` of feed `f`: one on each distinct record it names (R75). -/
def Context.pinsOn (f : FeedId) (n : SampleNo) (x : Context) : Nat :=
  x.records.countP fun r => r.feed = f ∧ r.number = n

/-- The pins of the contexts that are there. -/
def pinsOf (f : FeedId) (n : SampleNo) (xs : List (Option Context)) : Nat :=
  (xs.map fun x => (x.map (Context.pinsOn f n)).getD 0).sum

/-- The held contexts that no build uses. -/
def Contexts.unused (c : Contexts) : List (Option Context) :=
  [c.heldWhole, c.heldTop, c.heldBottom].map fun x => x.filter fun y => y.uses = 0

/-- The pins of every context of the part on record `n` of feed `f`. -/
def State.pinsOn (f : FeedId) (n : SampleNo) (s : State) : Nat :=
  (allOutputs.map fun o => pinsOf f n s.outputs[o].ctx.all).sum

/-- Only the context of the build in progress is in use, and it is the retired context, if there is one, or
else the context held for the build's parity (R77); a frozen context is there in FREEZE alone (R135, R136). -/
structure Output.Uses (x : Output) : Prop where
  idle : x.builder.build = none →
    x.ctx.retired = none ∧ ∀ p y, x.ctx.held p = some y → y.uses = 0
  retired : ∀ d z, x.builder.build = some d → x.ctx.retired = some z →
    z.uses = 1 ∧ ∀ p y, x.ctx.held p = some y → y.uses = 0
  held : ∀ d, x.builder.build = some d → x.ctx.retired = none →
    (∃ y, x.ctx.held d.parity = some y ∧ y.uses = 1) ∧
      ∀ p y, p ≠ d.parity → x.ctx.held p = some y → y.uses = 0
  frozen : x.ctx.frozen.isSome = true → x.modes.mode = .freeze

/-- The pin count of every record is the number of contexts, held, frozen and retired, that name it (R75 to
R77, R84, R135, R136). -/
def State.pinsHold (s : State) : Prop :=
  (∀ (f : FeedId), ∀ r ∈ s.feeds[f].history, r.pins = s.pinsOn f r.number) ∧
    ∀ o : OutId, s.outputs[o].Uses

/-- No context names the sample number that a feed gives next: none has been kept for 2^32 samples (R10). -/
def State.numbersFresh (s : State) : Prop := ∀ f : FeedId, s.pinsOn f s.feeds[f].sampleCounter = 0

/-! ## Bytes -/

/-- From byte `off` on, a list holds the number `v` in `n` bytes, least significant first. -/
def holdsAt (bytes : List Byte) (off n v : Nat) : Prop :=
  ∀ i, i < n → bytes[off + i]? = some (BitVec.ofNat 8 (v / 256 ^ i))

/-- The bytes from `lo` to `hi − 1` are zero. -/
def zeroAt (bytes : List Byte) (lo hi : Nat) : Prop := ∀ i, lo ≤ i → i < hi → bytes[i]? = some 0

/-- Byte `b` of a line of one colour: containers Cb, Y, Cr, Y, ten bits in two bytes (R103, R110). -/
def colourByte (k : Colour) (b : Nat) : Byte :=
  BitVec.ofNat 8 ((match b / 2 % 4 with | 0 => k.cb | 2 => k.cr | _ => k.y) % 1024 / 256 ^ (b % 2))

/-- The `n` bytes of a beat at window offset `x`, whose picture bytes are those of `pic` by their place in the
line: zero in the padding and from line Ho on (R109). -/
def windowBytes (c : OutputConfig) (pic : Nat → Byte) (x n : Nat) : List Byte :=
  (List.range n).map fun j =>
    let at_ := x + j - x / c.stride * c.stride
    if x / c.stride < c.lines ∧ at_ < 4 * c.width then pic at_ else 0

/-- Beat `i` of a read at window offset `off`, answered OKAY. -/
def windowBeat (c : OutputConfig) (pic : Nat → Byte) (off size i : Nat) : ReadBeat :=
  ⟨.okay, windowBytes c pic (beatStart off size i) (beatBytes off size i)⟩

/-- Whether a beat at window offset `x` begins with a picture byte (R109). -/
abbrev inPicture (c : OutputConfig) (x : Nat) : Prop :=
  x / c.stride < c.lines ∧ x - x / c.stride * c.stride < 4 * c.width

/-- A beat of a RUNNING output that starts at `x` is answered at once: it has no picture byte; or its line's
context is absent, FILL or EMPTY, or SLATE with no slate page, and it takes the fill colour (`from_` is none);
or its line's context is CONVERT or FREEZE and buffer `i`, the first that does, holds the line READY for it
(R109 to R112). -/
def Output.atOnce (c : OutputConfig) (x : Nat) (from_ : Option (Fin 2)) (out : Output) : Prop :=
  inPicture c x →
    (from_ = none ∧ ∀ y, out.ctx.held (c.lineParity (x / c.stride)) = some y →
      y.kind = .fill ∨ y.kind = .empty ∨ (y.kind = .slate ∧ out.modes.slatePage = none)) ∨
    ∃ i y, from_ = some i ∧ out.ctx.held (c.lineParity (x / c.stride)) = some y ∧
      (y.kind = .convert ∨ y.kind = .freeze) ∧
      (∀ j : Fin 2, j ≤ i → (out.builder.buffers[j].state = .ready ∧
        out.builder.buffers[j].line = some (x / c.stride) ∧
        out.builder.buffers[j].context = some y.id ↔ j = i))

/-- The colour or the buffer that an answer takes its picture bytes from. -/
def Output.picture (out : Output) : Option (Fin 2) → Nat → Byte
  | none => colourByte out.modes.fill
  | some i => fun b => out.builder.buffers[i].bytes.getD b 0

/-- A line of 4W bytes and its tally that show the sums `sum`: in container `x`, low byte first, the sum plus
32,768 divided by 65,536 toward minus infinity, clamped to the range of its component; the tally counts the
samples that the clamp changed (R99, R101, R102, R103). -/
def Build.showsSums (d : Build) (sum : Nat → Int) (line : List Byte × Nat) : Prop :=
  let lo : Int := match d.clip with | .narrow => 64 | .full => 4
  let hi : Nat → Int := fun x => match d.clip, x % 2 with
    | .narrow, 1 => 940 | .narrow, _ => 960 | .full, _ => 1019
  line.1.length = 4 * d.width ∧
    (∀ (x : Nat) (v : Int), x < 2 * d.width → v = max lo (min ((sum x + 32768) / 65536) (hi x)) →
      line.1[2 * x]? = some (BitVec.ofInt 8 v) ∧ line.1[2 * x + 1]? = some (BitVec.ofInt 8 (v / 256)) ∧
        v / 256 < 4) ∧
    line.2 = ((List.range (2 * d.width)).filter fun x =>
      decide ((sum x + 32768) / 65536 < lo ∨ hi x < (sum x + 32768) / 65536)).length

/-! ## Line builds, slate runs and the cache -/

/-- A build of line `y` has started for the held context `x` that names `ra` and `rb` (R77, R86, R113, R115):
the build fixes the line, the context's records with their slots' generations and its weight, the geometry,
the fill colour and the bank's table, and holds its tap lines in order of lookup; its buffer, the first EMPTY
one, else the one not last touched, is BUILDING; the context is in use. -/
def State.startsBuild (o : OutId) (c : OutputConfig) (fc : FeedConfig) (x : Context) (ra rb : RecordRef) (y : Nat)
    (s t : State) : Prop :=
  ∃ (d : Build) (i : Fin 2),
    t.outputs[o] =
      { s.outputs[o] with
        ctx := s.outputs[o].ctx.setHeld (c.lineParity y) (some { x with uses := x.uses + 1 })
        builder :=
          { s.outputs[o].builder with
            build := some d
            buffers := s.outputs[o].builder.buffers.set i ⟨.building, some y, some x.id, false, []⟩ } } ∧
    d.line = y ∧ d.context = x.id ∧ d.parity = c.lineParity y ∧ d.buffer = i ∧
    d.a = ⟨ra.feed, ra.number, ra.slot, s.feeds[ra.feed].generations[ra.slot], ra.parity⟩ ∧
    d.b = ⟨rb.feed, rb.number, rb.slot, s.feeds[rb.feed].generations[rb.slot], rb.parity⟩ ∧
    d.weight = x.weight ∧ d.sourceLines = fc.lines ∧ d.slotPage = fc.slotPage ∧ d.slotSize = fc.windowSize ∧
    d.sourceStride = fc.stride ∧ d.outLines = c.lines ∧ d.width = c.width ∧ d.clip = c.clip ∧
    d.fill = s.outputs[o].modes.fill ∧ d.table = s.banks[c.bank].table ∧
    (8 ≤ allEntries.countP (fun e => s.cache.entries[e].state = .free) → d.holds.map (·.1) = d.firstKeys) ∧
    (s.outputs[o].builder.buffers[(0 : Fin 2)].state = .empty → i = 0) ∧
    (s.outputs[o].builder.buffers[(0 : Fin 2)].state ≠ .empty →
      s.outputs[o].builder.buffers[(1 : Fin 2)].state = .empty → i = 1) ∧
    (s.outputs[o].builder.buffers[(0 : Fin 2)].state ≠ .empty →
      s.outputs[o].builder.buffers[(1 : Fin 2)].state ≠ .empty → s.outputs[o].builder.lastTouched ≠ some i) ∧
    s.changesOnly [.output o, .cache, .class1 o] t

/-- No buffer holds line `y` READY for context `x` (R112). -/
def LineBuilder.lacks (y : Nat) (x : Context) (lb : LineBuilder) : Prop :=
  ∀ i : Fin 2, ¬ (lb.buffers[i].state = .ready ∧ lb.buffers[i].line = some y ∧ lb.buffers[i].context = some x.id)

/-- A slate run has been fixed for the head burst `q`: the beats of its line from the head beat on, with one
read for each page of the slate region that their picture bytes touch, in address order; each read has joined
class 1, or waits while a slate write of its page is listed (R111, R153). -/
def State.startsRun (o : OutId) (c : OutputConfig) (page : Page) (q : QueuedRead) (s t : State) : Prop :=
  ∃ (run : SlateRun) (at_ : Nat → Nat) (y stop : Nat),
    (∀ i, at_ i = beatStart q.offset q.size.val (q.done + i)) ∧ y = at_ 0 / c.stride ∧
    t.outputs[o] =
      { s.outputs[o] with builder := { s.outputs[o].builder with run := some run } } ∧
    1 ≤ run.beats ∧ run.beats ≤ q.len - q.done ∧ (∀ i, i < run.beats → at_ i / c.stride = y) ∧
    (run.beats < q.len - q.done → at_ run.beats / c.stride ≠ y) ∧
    run.lineStart = y * c.stride ∧ run.pictureEnd = y * c.stride + 4 * c.width ∧
    stop = min (at_ (run.beats - 1) + beatBytes q.offset q.size.val (q.done + run.beats - 1))
      (y * c.stride + 4 * c.width) ∧
    (run.reads.flatMap fun r => List.range' r.offset r.len) = List.range' (at_ 0) (stop - at_ 0) ∧
    (run.reads.map fun r => r.offset / 4096).Nodup ∧
    (∀ r ∈ run.reads, 0 < r.len ∧ (r.offset + r.len - 1) / 4096 = r.offset / 4096 ∧ r.answer = none) ∧
    t.class1[o] = s.class1[o] ++ run.reads.zipIdx.filterMap (fun r =>
      let a := BitVec.ofNat 40 (page.toNat * 4096 + r.1.offset)
      if s.slateWritten (a.toNat / 4096) then none else some (.slate r.2 a r.1.len)) ∧
    t.waitingSlate = s.waitingSlate ++ run.reads.zipIdx.filterMap (fun r =>
      let a := BitVec.ofNat 40 (page.toNat * 4096 + r.1.offset)
      if s.slateWritten (a.toNat / 4096) then some ⟨o, r.2, a, r.1.len⟩ else none) ∧
    s.changesOnly [.output o, .class1 o, .waitingSlate] t

/-- The byte of a slate run at window offset `z`: zero in the padding; else the byte as stored, from the answer
to the read of its page; or the fill colour where that read failed (R109, R111). -/
def SlateRun.shownAt (fill : Colour) (z : Nat) (run : SlateRun) : Byte :=
  if run.pictureEnd ≤ z then 0
  else match run.reads.filter fun p => p.offset / 4096 = z / 4096 with
    | ⟨offset, _, some (some bytes)⟩ :: _ => bytes.getD (z - offset) 0
    | _ => colourByte fill (z - run.lineStart)

/-- Notices that name the keys of `p` have reached the cache: a named entry that is VALID and not in use
becomes FREE, any other named one has its drop mark set, and every entry that no notice names stays as it is
(R126). -/
def Cache.dropped (p : CacheKey → Prop) (c d : Cache) : Prop :=
  (∀ (i : EntryId) (k : CacheKey), c.entries[i].key = some k → p k → c.entries[i].state ≠ .free →
    (c.entries[i].state = .valid → c.entries[i].uses = 0 →
      d.entries[i] = ⟨none, .free, 0, false, [], none, 0, false⟩) ∧
    (¬ (c.entries[i].state = .valid ∧ c.entries[i].uses = 0) →
      d.entries[i] = { c.entries[i] with drop := true })) ∧
  (∀ i : EntryId, (c.entries[i].state = .free ∨ ∀ k, c.entries[i].key = some k → ¬ p k) →
    d.entries[i] = c.entries[i]) ∧
  ((∀ i ∈ c.order, c.entries[i].state ≠ .free) →
    d.order = c.order.filter fun i => d.entries[i].state ≠ .free)

/-! ## Latches (R63, R64) -/

/-- The output `x` takes a pulse at reference `r` as its start or its realignment (R48, R53, R56, R57). -/
def Output.takesPulse (r : Ref) (c : OutputConfig) (cause : PulseCause) (x : Output) : Prop :=
  x.config = some c ∧ c.ref = r ∧
    ((cause = .start ∧ x.state = .starting) ∨
      (cause = .realign ∧ x.state = .running ∧
        ¬ (x.gen.left = 0 ∧ x.gen.next = firstParity c.order) ∧
        ¬ (x.gen.left = c.period ∧ x.gen.next = (firstParity c.order).other)))

/-- The conditions that a latch of the new context `x` sets between two outputs: those of a CONVERT selection
(R70, R72, R73), CLIPPED of the replaced context `old` (R80), MODE_CHANGED (R134), HOLD_EXPIRED (R137),
SLATE_DONE (R144), and REF_REALIGN at a realignment (R57). -/
def latchConds (x : Context) (old : Option Context) (cause : PulseCause) (s t : Output) : Conds :=
  (if x.kind = .convert ∧ x.flags.underrun then 0x0001 else 0) |||
  (if x.kind = .convert ∧ x.flags.excess then 0x0002 else 0) |||
  (if x.kind = .convert ∧ x.flags.gap then 0x0004 else 0) |||
  (if ∃ y ∈ old, y.clips ≠ 0 then 0x0008 else 0) |||
  (if t.modes.mode ≠ s.modes.mode then 0x0020 else 0) |||
  (if t.modes.expired = true ∧ s.modes.expired = false then 0x0040 else 0) |||
  (if s.modes.injection = .oneShot ∧ t.modes.injection = .none_ then 0x0080 else 0) |||
  (if cause = .realign then 0x0100 else 0)

/-- Output `o` has latched the new context `x` at a pulse of parity `p`: what the pulse leaves of the output,
of the pins and of class 3 (R52 to R57, R63 to R66, R70 to R76, R79 to R83, R114). The frame-boundary work of
a FRAME START pulse is `State.FrameStarted`. -/
structure State.Latched (o : OutId) (c : OutputConfig) (p : Parity) (cause : PulseCause) (x : Context)
    (s t : State) : Prop where
  frame : s.changesOnly ([.output o, .class3, .deviceWord] ++ feedParts) t
  output : t.outputs[o] =
    { s.outputs[o] with
      state := if cause = .start then .running else s.outputs[o].state
      gen := ⟨true, c.period, p.other⟩
      modes := t.outputs[o].modes
      ctx := t.outputs[o].ctx
      builder := t.outputs[o].builder
      report :=
        { s.outputs[o].report with
          latchTick := s.tick.setWidth 32, kind := x.kind, weight := x.weight, flags := x.flags
          lastClip := match s.outputs[o].ctx.held p with
            | some y => y.clips
            | none => s.outputs[o].report.lastClip }
      word := s.outputs[o].word |||
        latchConds x (s.outputs[o].ctx.held p) cause s.outputs[o] t.outputs[o] }
  new : x.parity = p ∧ x.number = s.outputs[o].ctx.counter ∧ x.latchTick = s.tick ∧ x.clips = 0 ∧ x.uses = 0
  held : t.outputs[o].ctx.held p = some x
  others : ∀ q, q ≠ p → t.outputs[o].ctx.held q =
    if cause = .start ∧ q = p.other then
      some ⟨x.id + 1, .empty, none, none, 0, ⟨false, false, false, false⟩, q, x.number, s.tick, 0, 0⟩
    else s.outputs[o].ctx.held q
  id : (t.outputs[o].modes.mode = .freeze → s.outputs[o].modes.mode ≠ .freeze →
      (∃ q y, s.outputs[o].ctx.held q = some y ∧ y.kind = .convert) → x.id = s.outputs[o].ctx.nextId + 1) ∧
    ((t.outputs[o].modes.mode ≠ .freeze ∨ s.outputs[o].modes.mode = .freeze ∨
      ∀ q y, s.outputs[o].ctx.held q = some y → y.kind ≠ .convert) → x.id = s.outputs[o].ctx.nextId)
  nextId : t.outputs[o].ctx.nextId = x.id + (if cause = .start ∧ p ≠ p.other then 2 else 1)
  counters : t.outputs[o].ctx.counter = s.outputs[o].ctx.counter + 1 ∧
    t.outputs[o].ctx.traceIndex = (s.outputs[o].ctx.counter + 1).toNat % 64 ∧
    t.outputs[o].ctx.underruns =
      if x.kind = .convert ∧ x.flags.underrun ∧ s.outputs[o].ctx.underruns < 65535 then
        s.outputs[o].ctx.underruns + 1
      else s.outputs[o].ctx.underruns
  retired : ∀ y, s.outputs[o].ctx.held p = some y →
    t.outputs[o].ctx.retired = (if y.uses = 0 then s.outputs[o].ctx.retired else some y) ∧
    t.outputs[o].builder =
      { s.outputs[o].builder with
        buffers := s.outputs[o].builder.buffers.map fun z =>
          if z.context = some y.id then
            (match z.state with
              | .empty => z
              | .ready => ⟨.empty, none, none, false, []⟩
              | .building => { z with stale := true })
          else z }
  unretired : s.outputs[o].ctx.held p = none →
    t.outputs[o].ctx.retired = s.outputs[o].ctx.retired ∧ t.outputs[o].builder = s.outputs[o].builder
  feeds : ∀ f : FeedId, t.feeds[f] = { s.feeds[f] with history := t.feeds[f].history } ∧
    t.feeds[f].history.map (fun r => { r with pins := 0 }) =
      s.feeds[f].history.map (fun r => { r with pins := 0 })
  pins : (s.outputs[o].modes.mode ≠ .freeze → s.outputs[o].ctx.frozen = none) →
    ∀ f : FeedId, t.feeds[f].history = s.feeds[f].history.map fun r =>
      { r with
        pins := r.pins
          + pinsOf f r.number [if s.outputs[o].modes.mode = .freeze then none else t.outputs[o].ctx.frozen]
          - pinsOf f r.number [if t.outputs[o].modes.mode = .freeze then none else s.outputs[o].ctx.frozen]
          + x.pinsOn f r.number
          - pinsOf f r.number [(s.outputs[o].ctx.held p).filter fun y => y.uses = 0] }
  class3 : ∃ before after : State, s.onlyMarks [.output o] before ∧
    after.class3 =
      (if before.class3.any (fun h => h.isTrace o (s.outputs[o].ctx.counter.toNat % 64)) then
        before.class3.map fun h =>
          if h.isTrace o (s.outputs[o].ctx.counter.toNat % 64) then
            .trace o (s.outputs[o].ctx.counter.toNat % 64) x.traceEntry
          else h
      else before.class3 ++ [.trace o (s.outputs[o].ctx.counter.toNat % 64) x.traceEntry]) ∧
    after.onlyMarks [.output o] t
  marked : t.marked (.output o)
  choice : ∀ d : FrameDecision, d = t.outputs[o].ctx.decision.getD ⟨t.outputs[o].modes.mode, false⟩ →
    (d.slate = true → x.kind = .slate ∧ x.a = none ∧ x.b = none ∧ x.weight = 0 ∧
      x.flags = ⟨false, false, false, false⟩) ∧
    (d.slate = false →
      (d.mode = .fill ∨ (d.mode = .freeze ∧ t.outputs[o].ctx.frozen = none)) →
      x.kind = .fill ∧ x.a = none ∧ x.b = none ∧ x.weight = 0 ∧ x.flags = ⟨false, false, false, false⟩) ∧
    (∀ z, d.slate = false → d.mode = .freeze → t.outputs[o].ctx.frozen = some z →
      x.kind = .freeze ∧ x.a = z.a ∧ x.b = z.b ∧ x.weight = z.weight ∧ x.flags = z.flags) ∧
    (∀ (fc : FeedConfig) (sel : Selection), d.slate = false → d.mode = .convert →
      s.feeds[c.feed].config = some fc →
      sel = select c.feed fc.period c.temporal (toStamp (s.tick - BitVec.ofNat 40 c.delay))
        s.feeds[c.feed].history →
      x.kind = sel.kind ∧ x.a = sel.a ∧ x.b = sel.b ∧ x.weight = sel.weight ∧ x.flags = sel.flags)
  second : p ≠ firstParity c.order → t.outputs[o].modes = s.outputs[o].modes ∧
    t.outputs[o].ctx.decision = s.outputs[o].ctx.decision ∧ t.outputs[o].ctx.frozen = s.outputs[o].ctx.frozen

/-- A FRAME START pulse has done the frame-boundary work of output `o` and evaluated its slate injection, from
the mode state `m` and the contexts `k` to `n` and `l`, with the pending mode taken as `mode` (R63, R134 to
R138, R144). -/
structure State.FrameStarted (o : OutId) (c : OutputConfig) (m n : Modes) (k l : Contexts) (mode : Mode)
    (s t : State) : Prop where
  taken : n.mode = mode ∧ (mode ≠ m.mode → t.outputs[o].word &&& 0x0020 = 0x0020)
  kept : n.table = m.table ∧ n.manual = m.manual ∧ n.holdLimit = m.holdLimit ∧ n.slatePage = m.slatePage ∧
    n.fill = m.fill ∧ n.injectN = m.injectN
  leaving : mode ≠ .freeze → n.holdCount = 0 ∧ n.expired = false ∧ n.pending = none ∧
    (m.mode = .freeze → l.frozen = none)
  present : mode = .freeze → s.feeds[c.feed].cadence.state ≠ .lost →
    n.holdCount = m.holdCount ∧ n.expired = m.expired ∧ n.pending = none
  below : mode = .freeze → s.feeds[c.feed].cadence.state = .lost → 0 < m.holdLimit →
    m.holdCount + 1 < m.holdLimit →
    n.holdCount = m.holdCount + 1 ∧ n.expired = m.expired ∧ n.pending = none ∧
    t.outputs[o].word &&& 0x0040 = s.outputs[o].word &&& 0x0040
  endless : mode = .freeze → s.feeds[c.feed].cadence.state = .lost → m.holdLimit = 0 →
    n.holdCount = (if m.holdCount < 255 then m.holdCount + 1 else 255) ∧ n.expired = m.expired ∧
    n.pending = none ∧ t.outputs[o].word &&& 0x0040 = s.outputs[o].word &&& 0x0040
  above : mode = .freeze → s.feeds[c.feed].cadence.state = .lost → 0 < m.holdLimit →
    m.holdLimit ≤ m.holdCount → m.expired = false →
    n.holdCount = m.holdCount ∧ n.expired = true ∧ t.outputs[o].word &&& 0x0040 = 0x0040 ∧
    n.pending = if m.manual then none else m.table.holdExpired
  expired : mode = .freeze → s.feeds[c.feed].cadence.state = .lost → 0 < m.holdLimit →
    m.holdLimit ≤ m.holdCount + 1 → m.expired = true →
    n.holdCount = max m.holdCount m.holdLimit ∧ n.expired = true ∧ n.pending = none ∧
    t.outputs[o].word &&& 0x0040 = s.outputs[o].word &&& 0x0040
  reached : mode = .freeze → s.feeds[c.feed].cadence.state = .lost → m.holdCount + 1 = m.holdLimit →
    m.expired = false →
    n.holdCount = m.holdLimit ∧ n.expired = true ∧ t.outputs[o].word &&& 0x0040 = 0x0040 ∧
    n.pending = if m.manual then none else m.table.holdExpired
  frozen : ∀ p x, m.mode ≠ .freeze → mode = .freeze → k.held p = some x → x.kind = .convert →
    (∀ q y, q ≠ p → k.held q = some y → y.kind = .convert → 0 < (x.number - y.number).toInt) →
    l.frozen = some { x with id := k.nextId, clips := 0, uses := 0 }
  nothing : m.mode ≠ .freeze → mode = .freeze → (∀ p x, k.held p = some x → x.kind ≠ .convert) →
    l.frozen = k.frozen
  staying : (m.mode = .freeze ↔ mode = .freeze) → l.frozen = k.frozen
  none_ : m.injection = .none_ → n.injection = .none_ ∧ n.injectLeft = m.injectLeft ∧ n.counting = m.counting ∧
    l.decision = some ⟨mode, false⟩
  continuous : m.injection = .continuous → n.injection = .continuous ∧ l.decision = some ⟨mode, true⟩
  periodic : m.injection = .periodic → n.injection = .periodic ∧
    n.injectLeft = (if m.injectLeft = 0 then m.injectN else m.injectLeft - 1) ∧
    l.decision = some ⟨mode, decide (m.injectLeft = 0)⟩
  armed : m.injection = .oneShot → m.counting = false → n.injection = .oneShot ∧ n.counting = false ∧
    n.injectLeft = m.injectLeft ∧ l.decision = some ⟨mode, false⟩
  counting : m.injection = .oneShot → m.counting = true → m.injectLeft ≠ 0 →
    n.injection = .oneShot ∧ n.counting = true ∧ n.injectLeft = m.injectLeft - 1 ∧
    l.decision = some ⟨mode, false⟩
  shown : m.injection = .oneShot → m.counting = true → m.injectLeft = 0 →
    n.injection = .none_ ∧ n.counting = false ∧ t.outputs[o].word &&& 0x0080 = 0x0080 ∧
    l.decision = some ⟨mode, true⟩

/-- `State.FrameStarted` between two states. -/
def State.frameStarted (o : OutId) (c : OutputConfig) (s t : State) : Prop :=
  s.FrameStarted o c s.outputs[o].modes t.outputs[o].modes s.outputs[o].ctx t.outputs[o].ctx
    (s.outputs[o].modes.pending.getD s.outputs[o].modes.mode) t

/-! ## Feeds -/

/-- What an ingest write of window bytes `lo` to `hi − 1` into a slot carries: the lines of FILLING records
whose last byte it brings, and the frame lines of COMPLETE records that it touches (R7, R19, R24). -/
structure IngestAccount.Covers (f : FeedId) (c : FeedConfig) (into : SlotId) (x : Feed) (lo hi : Nat)
    (a : IngestAccount) : Prop where
  feed : a.feed = f
  slot : a.slot = into
  generation : a.generation = x.generations[into]
  completions : ∀ (n : SampleNo) (i : Nat), (n, i) ∈ a.completions ↔
    ∃ y r, y < c.lines ∧ lo ≤ y * c.stride + 4 * c.width - 1 ∧ y * c.stride + 4 * c.width - 1 < hi ∧
      recordOf into (c.place y).1 x.history = some r ∧ r.status = .filling ∧ n = r.number ∧
      i = (c.place y).2
  notices : ∀ y : Nat, y ∈ a.notices ↔
    y < c.lines ∧ y * c.stride < hi ∧ lo < (y + 1) * c.stride ∧
      ∃ r, recordOf into (c.place y).1 x.history = some r ∧ r.status = .complete

/-- The FILLING records of the current slot become PARTIAL, counted and flagged (R22). -/
def Feed.ended (x : Feed) : Feed :=
  let n := x.history.countP fun r => r.status = .filling ∧ some r.slot = x.current
  { x with
    history := x.history.map fun r =>
      if r.status = .filling ∧ some r.slot = x.current then { r with status := .partial_ } else r
    partials := max x.partials (min (x.partials + n) 65535)
    word := x.word ||| (if n = 0 then 0 else 0x0020) }

/-- A feed event reaches the outputs bound to the feed that are STARTING or RUNNING (R42, R132). -/
def Output.heard (f : FeedId) (events : List FeedEvent) (x : Output) : Output :=
  if x.boundTo f && x.live then
    { x with modes := events.foldl (fun m e => Modes.feedEvent e m) x.modes }
  else x

/-- A stamp as R35 leaves it: itself when it lies after the newest record's stamp, else that stamp plus 256. -/
def afterNewest (newest : Option Stamp) (stamp : Stamp) : Stamp :=
  match newest with
  | none => stamp
  | some n => if 0 < Stamp.since stamp n then stamp else n + 256

/-- The response that a row brings to the Memory Port. -/
def replyOf : Instr → Option Reply
  | .ingestWriteResponse id resp => some (.write (id.setWidth 9) resp)
  | .forwardedResponse r => some r
  | .slotRegionWriteResponse id resp => some (.write (id.setWidth 9) resp)
  | .slateWriteResponse id resp => some (.write (id.setWidth 9) resp)
  | .statusRecordWriteResponse resp => some (.write class3Id resp)
  | .resultWordResponse resp => some (.write class3Id resp)
  | .coefficientLoadCompletion beats => some (.read class3Id beats)
  | .lineFillResponse o beats => some (.read (fetchId o) beats)
  | .slateReadResponse o beats => some (.read (fetchId o) beats)
  | .configureFeed _ | .enableFeed _ | .disableFeed _ | .rearmMonitor _ | .configureOutput _
  | .startOutput _ | .stopOutput _ | .setResponse _ | .setSlate _ | .forceMode _ | .releaseMode _
  | .loadCoefficients _ | .clearConditions _ | .setMasks _ | .identify _ | .deviceClear _
  | .unknownCommand _ _ | .malformedCommandWrite _ | .commandOverrun _ | .controlBlockWrite _
  | .passthrough _ | .slateRegionWrite _ | .ingestWrite _ | .ingestRead _ | .outputRead _
  | .refusedBurst _ | .outputWindowWrite _ | .memoryPortGrant | .lineBuildCompletion _
  | .referencePulse _ | .referenceAbsent _ | .underflow _ | .lossTimerExpiry _ | .powerUp | .resetLine
  | .resetRelease _ | .tick => none

/-- A row that brings a burst to the Bus Port, with the burst. -/
def burstRows (b : Burst) : List Instr :=
  [.malformedCommandWrite b, .commandOverrun b, .controlBlockWrite b, .passthrough b, .slateRegionWrite b,
    .ingestWrite b, .ingestRead b, .outputRead b, .refusedBurst b, .outputWindowWrite b]

/-- The granted burst `g` is the oldest that a response answers, in a part that runs (R150). -/
def State.answers (r : Reply) (g : Granted) (s : State) : Prop :=
  s.resetting = false ∧ s.granted.find? (matchesGrant r) = some g

/-- The state in which the answered burst has left the outstanding ones (R161). -/
def State.without (r : Reply) (s : State) : State :=
  { s with granted := s.granted.eraseP (matchesGrant r) }

/-- The responses sent up the Bus Port between two states of one run. -/
def State.sent (s t : State) : List BusOut := t.busOut.drop s.busOut.length

/-- A burst accepted and forwarded as `out` is the newest class 2 request, and its answer is owed to its
master (R150, R157, R160). -/
def State.passedOn (b out : Burst) (kind : BusKind) (s : State) : State :=
  { s with
    reads := if b.write then s.reads else s.reads ++ [⟨s.nextSerial, b.id, [], false⟩]
    writes := if b.write then s.writes ++ [⟨s.nextSerial, b.id, none⟩] else s.writes
    nextSerial := s.nextSerial + 1
    class2 := s.class2 ++ [⟨s.nextSerial, out, kind, [], []⟩] }

/-- No burst of the same ID and direction waits for its answer before `b` (R158). -/
def State.first (b : Burst) (s : State) : Prop :=
  if b.write then ∀ x ∈ s.writes, x.id ≠ b.id else ∀ x ∈ s.reads, x.id ≠ b.id

/-- A burst that is not forwarded has been accepted with its whole answer: the response of a write, or the beats
of a read, stands at the end of its channel's accepted bursts and goes up when the earlier bursts of its ID have
gone; with one of them unanswered it is kept. -/
def State.answeredAtOnce (b : Burst) (resp : Resp) (s t : State) : Prop :=
  let beats : List ReadBeat := (List.range b.len).map fun i =>
    ⟨resp, List.replicate (beatBytes b.addr.toNat b.size.val i) 0⟩
  (∃ u : State, t.reads = u.flush.reads ∧ t.writes = u.flush.writes ∧ t.busOut = u.flush.busOut ∧
    u.busOut = s.busOut ∧
    u.reads = (if b.write then s.reads else s.reads ++ [⟨s.nextSerial, b.id, beats, true⟩]) ∧
    u.writes = (if b.write then s.writes ++ [⟨s.nextSerial, b.id, some resp⟩] else s.writes)) ∧
  (s.first b → b.write = true → BusOut.write b.id resp ∈ s.sent t ∧ ∀ x ∈ t.writes, x ∈ s.writes) ∧
  (s.first b → b.write = false → BusOut.read b.id beats ∈ s.sent t ∧ ∀ x ∈ t.reads, x ∈ s.reads) ∧
  (b.write = true → (∃ x ∈ s.writes, x.id = b.id ∧ x.resp = none) →
    ⟨s.nextSerial, b.id, some resp⟩ ∈ t.writes) ∧
  (b.write = false → (∃ x ∈ s.reads, x.id = b.id ∧ x.ready = false) →
    ⟨s.nextSerial, b.id, beats, true⟩ ∈ t.reads)

/-- The response `resp` has come back for the accepted write `serial`, and goes up the Bus Port when its ID's
order allows (R150, R158). -/
def State.answeredUp (serial : Nat) (resp : Resp) (s t : State) : Prop :=
  ∃ u : State, t.reads = u.flush.reads ∧ t.writes = u.flush.writes ∧ t.busOut = u.flush.busOut ∧
    u.busOut = s.busOut ∧ u.reads = s.reads ∧
    u.writes = s.writes.map fun y => if y.serial = serial then { y with resp := some resp } else y

/-- The fields of a cell once its result is settled: the result word is requested when the host's own write
has been answered, and once (R170). -/
def ActiveCommand.settledAs (code : ResultCode) (detail : Byte) (a : ActiveCommand) : ActiveCommand :=
  { a with
    settled := some (code, detail)
    stage := if a.hostAnswered ∧ a.stage = .unrequested then .waiting else a.stage }

/-- The pieces that a response always changes: the outstanding bursts, and what waits to go up (R161). -/
def replyParts : List Part := [.granted, .reads, .writes, .busOut]

/-- Every phase of both banks passes the validity check (R94). -/
def State.tablesValid (s : State) : Prop :=
  ∀ (k : BankId) (p : Fin 32), (s.banks[k].table[p]).valid = true

end Sys2Proof.Machine
end

