-- ==== Sys2Proof/WellFormed.lean ====
section
/-! DEFINITION. Which commands and events the bus protocol and the manual's ranges admit. -/

namespace Sys2Proof

/-- The bytes of an INCR burst, by R149: from the first byte to the end of the last aligned block. -/
def Burst.incrBytes (b : Burst) : Nat := b.len * 2 ^ b.size.val - b.addr.toNat % 2 ^ b.size.val

/-- 1 to 256 beats, as AXI4 has them; a FIXED or WRAP burst has at most 16. -/
def Burst.lenOk (b : Burst) : Bool :=
  1 ≤ b.len && b.len ≤ (if b.kind = .incr then 256 else 16)

/-- An AXI burst does not cross a 4 KiB boundary (R148). -/
def Burst.pageOk (b : Burst) : Bool :=
  b.kind ≠ .incr || b.addr.toNat % 4096 + b.incrBytes ≤ 4096

/-- A write carries one strobe for each byte, and an INCR write its whole range; a read carries none. -/
def Burst.dataOk (b : Burst) : Bool :=
  b.strobes.length = b.data.length &&
    (if b.write then b.kind ≠ .incr || b.data.length = b.incrBytes else b.data.length = 0)

def Burst.wf (b : Burst) : Bool := b.lenOk && b.pageOk && b.dataOk

/-- The code of UNKNOWN_COMMAND is none of the sixteen (R169, R202). -/
def unknownCode (code : Byte) : Bool := code = 0 || 16 < code.toNat

def Reply.wf : Reply → Bool
  | .write id _ => id.toNat < 256
  | .read id beats => id.toNat < 256 && beats.length ≠ 0

/-- A well-formed command or event. -/
def Instr.wf : Instr → Bool
  | .unknownCommand code _ => unknownCode code
  | .malformedCommandWrite b => b.wf && b.write
  | .commandOverrun b => b.wf && b.write
  | .controlBlockWrite b => b.wf
  | .passthrough b => b.wf
  | .slateRegionWrite b => b.wf && b.write
  | .ingestWrite b => b.wf && b.write && b.kind = .incr
  | .ingestRead b => b.wf && !b.write && b.kind = .incr
  | .outputRead b => b.wf && !b.write && b.kind = .incr
  | .refusedBurst b => b.wf && b.kind ≠ .incr
  | .outputWindowWrite b => b.wf && b.write && b.kind = .incr
  | .forwardedResponse r => r.wf
  | .coefficientLoadCompletion beats => beats.length ≠ 0
  | .lineFillResponse _ beats => beats.length ≠ 0
  | .slateReadResponse _ beats => beats.length ≠ 0
  | .configureFeed _ | .enableFeed _ | .disableFeed _ | .rearmMonitor _ | .configureOutput _
  | .startOutput _ | .stopOutput _ | .setResponse _ | .setSlate _ | .forceMode _ | .releaseMode _
  | .loadCoefficients _ | .clearConditions _ | .setMasks _ | .identify _ | .deviceClear _
  | .ingestWriteResponse _ _ | .slotRegionWriteResponse _ _ | .slateWriteResponse _ _
  | .memoryPortGrant | .statusRecordWriteResponse _ | .resultWordResponse _
  | .lineBuildCompletion _ | .referencePulse _ | .referenceAbsent _ | .underflow _
  | .lossTimerExpiry _ | .powerUp | .resetLine | .resetRelease _ | .tick => true

end Sys2Proof
end

