-- ==== Sys2Proof/Certificates/Slice0/Obligations.lean ====
section
/-! DEFINITION. The statements for the provers. -/

open Sys2Proof Sys2Proof.Machine

/-! ## The queue and reset -/

/-- A step carries out the command at the front of the queue on the state with the queue's rest; on an empty
queue the part idles; no command or event touches the queue. The model's own queue: log entry 1. -/
def Obligations.StepRunsTheFrontOfTheQueue : Prop :=
  (∀ (c : Instr) (rest : List Instr) (s : State), s.pending = c :: rest →
    step s = exec c { s with pending := rest }) ∧
  (∀ s : State, s.pending = [] → step s = .next s) ∧
  (∀ (c : Instr) (s t : State), exec c s = .next t → t.pending = s.pending)

/-- No command is refused by the model, and the only fault is a response at the Memory Port that answers no
granted burst (the model's choice, log entry 9). -/
def Obligations.OnlyAnUnsolicitedResponseStops : Prop :=
  ∀ (c : Instr) (s : State), (∀ r, exec c s ≠ .refused r) ∧
    (∀ f, exec c s = .fault f ↔
      s.resetting = false ∧ ∃ r, replyOf c = some r ∧ s.granted.find? (matchesGrant r) = none)

/-- Power-up and the reset line give every block its initial state, and the release samples the straps, sets
the cause and marks the nine records in order (R26, R60, R195, R199, R200); the queue stays (log entry 1). In
reset no other command or event has an effect (the model's reading, log entry 3). -/
def Obligations.ResetGivesTheInitialState : Prop :=
  (∀ (s : State) (straps : BitVec 10),
    (∃ t, exec .powerUp s = .next t ∧
      t = { State.initial with
        powerEdge := true, resetCause := s.resetCause, strap := s.strap, pending := s.pending } ∧
      exec (.resetRelease straps) t =
        .next { State.reset with resetCause := .power, strap := straps, pending := s.pending }) ∧
    (∃ t, exec .resetLine s = .next t ∧
      t = { State.initial with
        powerEdge := s.resetting && s.powerEdge, resetCause := s.resetCause, strap := s.strap
        pending := s.pending } ∧
      exec (.resetRelease straps) t =
        .next { State.reset with
          resetCause := if s.resetting && s.powerEdge then .power else .line
          strap := straps, pending := s.pending })) ∧
  (∀ (c : Instr) (s : State), s.resetting = true → c ≠ .powerUp → c ≠ .resetLine →
    (∀ straps, c ≠ .resetRelease straps) → exec c s = .next s)

/-! ## Commands of a cell -/

/-- The row of a command is the whole-cell write that brings it, presented at the Bus Port like any other
burst (R166, R203). A control block write is offered to its cells in order: each cell covered whole as that
cell's own command row, taken when the cell is IDLE and an overrun when it is ACTIVE, each other cell it
touches sets COMMAND_FORM, and a cell it leaves alone sees nothing; the one write is forwarded unchanged
(R151, R167, R168). The bytes that FIXED and WRAP bursts touch: log entry 13. -/
def Obligations.CommandRowIsItsWholeCellWrite : Prop :=
  (∀ (code : Byte) (w : CellWrite) (s : State),
    exec (commandRow code w) s = exec (.controlBlockWrite (w.burst s.controlBase code)) s) ∧
  (∀ (b : Burst) (i : Instr) (base : Nat) (s : State),
    i ∈ [.malformedCommandWrite b, .commandOverrun b, .controlBlockWrite b] → s.open_ b → s.noticeHolds →
    b.write = true → s.classOf b.addr = some .control → base = s.controlBase →
    ∃ u : Nat → State, u 0 = s ∧
      exec i s = .next
        { u 16 with
          writes := (u 16).writes ++ [⟨s.nextSerial, b.id, none⟩]
          nextSerial := s.nextSerial + 1
          class2 := (u 16).class2 ++ [⟨s.nextSerial, b, .control,
            allCells.filter (fun c => b.coversCell base c && s.cells[c].isNone),
            allCells.filter (fun c => b.coversCell base c && s.cells[c].isSome)⟩] } ∧
      ∀ c : CellId,
        (b.coversCell base c = true →
          ∃ v, exec (commandRow (b.cellCode base c) (b.cellWrite base c)) (u c.val) = .next v ∧
            u (c.val + 1) = v.withoutWrite s.nextSerial) ∧
        (b.coversCell base c = false →
          b.touches (base + 0x400 + 32 * c.val) (base + 0x400 + 32 * c.val + 32) = true →
          (u c.val).changesOnly [.deviceWord, .class3] (u (c.val + 1)) ∧ (u c.val).onlyMarks [] (u (c.val + 1)) ∧
            (u (c.val + 1)).noticeHolds ∧ (u (c.val + 1)).deviceWord = (u c.val).deviceWord ||| 0x0020) ∧
        (b.coversCell base c = false →
          b.touches (base + 0x400 + 32 * c.val) (base + 0x400 + 32 * c.val + 32) = false →
          u (c.val + 1) = u c.val))

/-- A taken command is checked in the order of R169: code, target, state, use, parameters by number, geometry,
regions; the first check that fails settles its result, UNKNOWN, BAD_FIELD, WRONG_STATE, IN_USE, GEOMETRY or
OVERLAP, with its detail byte, and with none failing the command settles DONE (R169, R171 to R187), but for
LOAD_COEFFICIENTS, whose table read is still to come, and IDENTIFY, which waits for a record's write. A refused
command changes no state of the part apart from its cell and the result it receives; its write is forwarded all
the same (R166), and class 3 gains at most the mark of the device record (R168). `State.checks` spells each
command's checks from the state. An odd line count of an interlaced rate fails as the line count (the model's
choice, log entry 19); CONFIGURE_OUTPUT replaces its slate region as well (log entry 15); of several kinds met,
any may be the detail (the model takes the lowest: log entry 14). -/
def Obligations.CommandsAreCheckedInOrder : Prop :=
  ∀ (code : Byte) (w : CellWrite) (s : State), s.ready w →
    ∃ (t : State) (v : Option (ResultCode × Byte)), exec (commandRow code w) s = .next t ∧
      settledBy (s.checks code w) v ∧
      (∀ r d, v = some (r, d) → t.cells[w.cell] = settledCell w r d ∧ s.wrote code w t ∧
        s.changesOnly (CellParts w) t ∧
        (t.class3 = s.class3 ∨ t.class3 = s.class3 ++ [.record .device])) ∧
      (v = none → t.cells[w.cell] =
        (match code.toNat with
          | 12 => some (ActiveCommand.fresh w.tag)
          | 15 => some { ActiveCommand.fresh w.tag with identify := .waiting }
          | _ => settledCell w .done 0))

/-- The parameter checks of CONFIGURE_FEED, CONFIGURE_OUTPUT, SET_RESPONSE and SET_SLATE pass exactly on the
ranges of R4, R27, R131, R143 and R176, read from the fields of R204. With its target and its target's state in
order, each command of one parameter settles BAD_FIELD with detail 1 exactly outside the range: a threshold of 1
or more for REARM_MONITOR (R175), modes 1 to 3 for FORCE_MODE (R181), a page below 2^28 for LOAD_COEFFICIENTS
(R183), the selectors 0 to 8 for CLEAR_CONDITIONS and SET_MASKS (R184, R185, R202). -/
def Obligations.ParameterRanges : Prop :=
  (∀ w : CellWrite, feedParamBad w = none ↔
    (256 ≤ field w.w1 0 16 ∧ field w.w1 0 16 ≤ 2048 ∧ field w.w1 0 16 % 8 = 0) ∧
    (128 ≤ field w.w1 16 16 ∧ field w.w1 16 16 ≤ 1088 ∧
      (8 ≤ field w.w2 0 8 → field w.w1 16 16 % 2 = 0)) ∧
    field w.w2 0 8 ≤ 10 ∧ (8 ≤ field w.w2 0 8 → field w.w2 8 8 ≤ 1) ∧
    (3 ≤ field w.w2 16 8 ∧ field w.w2 16 8 ≤ 8) ∧
    (field w.w3 0 16 % 64 = 0 ∧ 4 * field w.w1 0 16 ≤ field w.w3 0 16 ∧ field w.w3 0 16 ≤ 16320) ∧
    w.w4.toNat < 2 ^ 28 ∧ w.w5.toNat < 2 ^ 28 ∧
    (1 ≤ field w.w3 16 8 ∧ field w.w3 16 8 ≤ 15) ∧ (3 ≤ field w.w2 24 8 ∧ field w.w2 24 8 ≤ 8) ∧
    2 ≤ field w.w3 24 8 ∧ 1 ≤ field w.w6 0 8) ∧
  (∀ w : CellWrite, outputParamBad w = none ↔
    field w.w1 0 8 ≤ 3 ∧
    (256 ≤ field w.w2 0 16 ∧ field w.w2 0 16 ≤ 2048 ∧ field w.w2 0 16 % 8 = 0) ∧
    (128 ≤ field w.w2 16 16 ∧ field w.w2 16 16 ≤ 1088 ∧
      (8 ≤ field w.w1 8 8 → field w.w2 16 16 % 2 = 0)) ∧
    ((field w.w1 8 8 ∈ [2, 5, 8] ∧ field w.w1 24 8 = 0) ∨
      (field w.w1 8 8 ∈ [3, 6, 9] ∧ field w.w1 24 8 = 1)) ∧
    (8 ≤ field w.w1 8 8 → field w.w1 16 8 ≤ 1) ∧
    (field w.w3 0 16 % 64 = 0 ∧ 4 * field w.w2 0 16 ≤ field w.w3 0 16 ∧ field w.w3 0 16 ≤ 16320) ∧
    w.w4.toNat < 2 ^ 28 ∧ field w.w3 16 8 ≤ 1 ∧ field w.w3 24 8 ≤ 1 ∧ field w.w5 24 8 ≤ 1) ∧
  (∀ w : CellWrite, responseParamBad w = none ↔
    field w.w1 0 8 ≤ 3 ∧ field w.w1 8 8 ≤ 3 ∧ field w.w1 16 8 ≤ 3 ∧ field w.w1 24 8 ≤ 3 ∧
    field w.w2 0 16 ≤ 255) ∧
  (∀ w : CellWrite, slateParamBad w = none ↔
    field w.w1 0 8 ≤ 1 ∧ (field w.w1 0 8 = 1 → w.w2.toNat < 2 ^ 28) ∧ field w.w1 8 8 ≤ 3 ∧
    (field w.w1 8 8 ≠ 0 → field w.w1 0 8 = 1)) ∧
  (∀ (i : Instr) (w : CellWrite) (good : Prop) (s : State), s.ready w →
    ((∃ f : FeedId, i = .rearmMonitor w ∧ targetQuad w = some f ∧ s.feeds[f].config ≠ none ∧
        (good ↔ 1 ≤ field w.w1 0 8)) ∨
      (∃ o : OutId, i = .forceMode w ∧ targetQuad w = some o ∧ s.outputs[o].live = true ∧
        (good ↔ 1 ≤ field w.w1 0 8 ∧ field w.w1 0 8 ≤ 3)) ∨
      (∃ k : BankId, i = .loadCoefficients w ∧ targetBank w = some k ∧ s.bankFree k ∧
        (good ↔ w.w1.toNat < 2 ^ 28)) ∨
      ((i = .clearConditions w ∨ i = .setMasks w) ∧ (good ↔ field w.w1 0 8 ≤ 8))) →
    ∃ t, exec i s = .next t ∧
      (¬ good → t.cells[w.cell] = settledCell w .badField 1) ∧
      (good → t.cells[w.cell] =
        if i = .loadCoefficients w then some (ActiveCommand.fresh w.tag) else settledCell w .done 0))

/-- CONFIGURE_FEED writes the configuration whole and loads the irregularity counter with the threshold; the
feed's other state is kept (R4, R44, R172). REARM_MONITOR replaces the threshold and loads the irregularity
counter with it, in any feed state of a configured feed, and changes nothing else of the feed: IRREGULAR_LIMIT
stays (R44, R175). -/
def Obligations.FeedConfigurationCommands : Prop :=
  (∀ (w : CellWrite) (f : FeedId) (s : State), s.ready w → s.noticeHolds → targetQuad w = some f →
    s.feeds[f].cadence.state = .disabled → s.feedInUse f = false → feedParamBad w = none →
    s.feedOverlap f (feedConfigOf w) = none →
    ∃ t, exec (.configureFeed w) s = .next t ∧ s.carried 1 w [.feed f] t ∧ t.marked (.feed f) ∧
      t.feeds[f] =
        { s.feeds[f] with
          config := some (feedConfigOf w)
          cadence := { s.feeds[f].cadence with irregularLeft := field w.w6 0 8 } }) ∧
  (∀ (w : CellWrite) (f : FeedId) (c : FeedConfig) (s : State), s.ready w → s.noticeHolds →
    targetQuad w = some f → s.feeds[f].config = some c → 1 ≤ field w.w1 0 8 →
    ∃ t, exec (.rearmMonitor w) s = .next t ∧ s.carried 4 w [.feed f] t ∧ t.marked (.feed f) ∧
      t.feeds[f] =
        { s.feeds[f] with
          config := some { c with threshold := field w.w1 0 8 }
          cadence := { s.feeds[f].cadence with irregularLeft := field w.w1 0 8 } })

/-- ENABLE_FEED takes a configured DISABLED feed to SEEKING with a seed pending, E at Ps × 256, the run counts
0 and the loss timer loaded, and the phase to AWAITING (R6, R28); the event FEED_SEEKING reaches the bound
outputs that are STARTING or RUNNING (R42, R132). -/
def Obligations.EnableFeedStartsSeeking : Prop :=
  ∀ (w : CellWrite) (f : FeedId) (c : FeedConfig) (s : State), s.ready w → s.noticeHolds →
    targetQuad w = some f → s.feeds[f].config = some c → s.feeds[f].cadence.state = .disabled →
    ∃ t, exec (.enableFeed w) s = .next t ∧
      s.carried 2 w [.feed f, .output 0, .output 1, .output 2, .output 3] t ∧ t.marked (.feed f) ∧
      t.feeds[f] =
        { s.feeds[f] with
          phase := .awaiting
          cadence :=
            { s.feeds[f].cadence with
              state := .seeking, seedPending := true, period := c.rate.period * 256, regularRun := 0
              irregularRun := 0, lossTimer := some (c.lossPeriods * c.rate.period) } } ∧
      ∀ o : OutId, t.outputs[o] =
        if s.outputs[o].boundTo f && s.outputs[o].live then
          { s.outputs[o] with modes := Modes.feedEvent (.seeking false) s.outputs[o].modes }
        else s.outputs[o]

/-- DISABLE_FEED removes every record, makes the current and most recent slots absent, stops the tracker and
drops the feed's lines from the Line Cache, other lines staying; each FILLING record is first counted as
PARTIAL, up to 65,535, with PARTIAL_SAMPLE set; the configuration, the generations, the sample counter, the
discard counter, the irregularity counters, the mask and the update count are kept (R22, R25, R45, R126, R174).
-/
def Obligations.DisableFeedClearsTheHistory : Prop :=
  ∀ (w : CellWrite) (f : FeedId) (n : Nat) (s : State), s.ready w → targetQuad w = some f →
    s.feeds[f].cadence.state ≠ .disabled → s.feedInUse f = false →
    n = s.feeds[f].history.countP (fun r => r.status = .filling) →
    ∃ t, exec (.disableFeed w) s = .next t ∧ s.carried 3 w [.feed f, .cache, .deviceWord] t ∧
      t.marked (.feed f) ∧
      t.feeds[f] =
        { s.feeds[f] with
          history := [], current := none, mostRecent := none, phase := .idle
          partials := max s.feeds[f].partials (min (s.feeds[f].partials + n) 65535)
          word := s.feeds[f].word ||| (if n = 0 then 0 else 0x0020)
          cadence :=
            { s.feeds[f].cadence with
              state := .disabled, lossTimer := none, seedPending := false, period := 0, lastRaw := 0
              lastSmoothed := 0, regularRun := 0, irregularRun := 0 } } ∧
      s.cache.dropped (fun k => k.feed = f) t.cache ∧ ∀ k : CacheKey, k.feed = f → t.cache.find k = none

/-- CONFIGURE_OUTPUT writes the configuration whole, clamps the fill colour into the clip range, gives the mode
state its default set with no slate page, and makes the output STOPPED (R51, R129, R130, R176). -/
def Obligations.ConfigureOutputWritesTheConfiguration : Prop :=
  ∀ (w : CellWrite) (o : OutId) (s : State), s.ready w → s.noticeHolds → s.outputs[o].Holds →
    targetQuad w = some o → s.outputs[o].live = false → outputParamBad w = none →
    s.geometryKnown (outputConfigOf w) = true → s.windowOverlap o (outputConfigOf w) = none →
    ∃ t, exec (.configureOutput w) s = .next t ∧ s.carried 5 w [.output o] t ∧ t.marked (.output o) ∧
      t.outputs[o] =
        { s.outputs[o] with
          state := .stopped
          config := some (outputConfigOf w)
          modes :=
            { mode := .fill, manual := false, pending := none
              table := ⟨some .convert, none, some .freeze, some .fill⟩
              holdLimit := 50, holdCount := 0, expired := false
              fill := clampFill (outputConfigOf w).clip ⟨field w.w6 0 10, field w.w6 10 10, field w.w6 20 10⟩
              slatePage := none, injection := .none_, counting := false, injectN := 0, injectLeft := 0 } }

/-- START_OUTPUT makes a STOPPED output STARTING with its mode state set afresh from the feed's present state
(R53, R141, R177); the generator stays as it is. -/
def Obligations.StartOutputWaitsForThePulse : Prop :=
  ∀ (w : CellWrite) (o : OutId) (c : OutputConfig) (s : State), s.ready w → s.noticeHolds →
    targetQuad w = some o → s.outputs[o].config = some c → s.outputs[o].state = .stopped →
    s.banks[c.bank].loading = none → s.geometryHolds c = true →
    ∃ t, exec (.startOutput w) s = .next t ∧ s.carried 6 w [.output o] t ∧ t.marked (.output o) ∧
      ∃ m : Mode,
        t.outputs[o] =
          { s.outputs[o] with
            state := .starting
            modes :=
              { s.outputs[o].modes with
                manual := false, pending := none, mode := m, holdCount := 0, expired := false
                counting := false
                injectLeft := match s.outputs[o].modes.injection with
                  | .none_ | .continuous => 0
                  | .oneShot | .periodic => s.outputs[o].modes.injectN } } ∧
        m = (match s.feeds[c.feed].cadence.state with
          | .locked => s.outputs[o].modes.table.locked
          | .seeking => s.outputs[o].modes.table.seeking
          | .lost => s.outputs[o].modes.table.lost
          | .disabled => none).getD .convert

/-- STOP_OUTPUT makes a STARTING or RUNNING output STOPPED: the generator is IDLE, no context, frozen context
or frame decision is held, the pending mode is absent and the hold count 0; the configuration, the response
table, the fill colour and the slate setting are kept (R59, R84, R142, R178). Of the feeds only the pins
change: those of each held context that no build uses, and of the frozen one, are released; a context in use
becomes the retired one (R76, R84, R136). Taken from RUNNING it invalidates both buffers and answers the
waiting reads, but for a slate run in flight (R119). -/
def Obligations.StopOutputGivesUpTheContexts : Prop :=
  ∀ (w : CellWrite) (o : OutId) (s : State), s.ready w → s.noticeHolds → s.outputs[o].Holds →
    targetQuad w = some o → s.outputs[o].live = true →
    ∃ t, exec (.stopOutput w) s = .next t ∧
      t.cells[w.cell] = settledCell w .done 0 ∧
      s.changesOnly (CellParts w ++
        [.output o, .feed 0, .feed 1, .feed 2, .feed 3, .reads, .busOut]) t ∧ t.marked (.output o) ∧
      s.onlyMarks [.output o] t ∧
      t.outputs[o].state = .stopped ∧ t.outputs[o].gen.counting = false ∧
      (s.outputs[o].state = .running → t.outputs[o].gen = Generator.idle) ∧
      (∃ z, t.outputs[o].ctx =
        { s.outputs[o].ctx with
          heldWhole := none, heldTop := none, heldBottom := none, frozen := none, decision := none
          retired := z } ∧
        ((∀ p y, s.outputs[o].ctx.held p = some y → y.uses = 0) → z = s.outputs[o].ctx.retired) ∧
        ∀ p y, s.outputs[o].ctx.held p = some y → y.uses ≠ 0 →
          (∀ q x, q ≠ p → s.outputs[o].ctx.held q = some x → x.uses = 0) → z = some y) ∧
      t.outputs[o].config = s.outputs[o].config ∧
      t.outputs[o].modes =
        { s.outputs[o].modes with pending := none, holdCount := 0, expired := false } ∧
      t.outputs[o].word = s.outputs[o].word ∧ t.outputs[o].report = s.outputs[o].report ∧
      t.outputs[o].mask = s.outputs[o].mask ∧ t.outputs[o].updates = s.outputs[o].updates ∧
      (s.outputs[o].state = .starting → t.outputs[o].builder = s.outputs[o].builder) ∧
      (s.outputs[o].state = .running → t.outputs[o].builder =
        { s.outputs[o].builder with
          queue := if s.outputs[o].builder.run = none then [] else s.outputs[o].builder.queue
          buffers := s.outputs[o].builder.buffers.map fun x =>
            match x.state with
            | .empty => x
            | .ready => ⟨.empty, none, none, false, []⟩
            | .building => { x with stale := true } }) ∧
      (∀ c, s.outputs[o].state = .running → s.outputs[o].config = some c → s.outputs[o].builder.run = none →
        ∃ (u : State) (g : ReadTxn → ReadTxn), t.reads = u.flush.reads ∧ t.writes = u.flush.writes ∧
          t.busOut = u.flush.busOut ∧ u.busOut = s.busOut ∧
          u.writes = s.writes ++ [⟨s.nextSerial, w.id, none⟩] ∧ u.reads = s.reads.map g ∧
          ∀ x ∈ s.reads,
            ((∀ q ∈ s.outputs[o].builder.queue, q.serial ≠ x.serial) → g x = x) ∧
            ∀ q, s.outputs[o].builder.queue.filter (fun r => r.serial = x.serial) = [q] →
              q.done < q.len →
              g x =
                { x with
                  ready := true
                  beats := x.beats ++ (List.range (q.len - q.done)).map fun i =>
                    windowBeat c (colourByte s.outputs[o].modes.fill) q.offset q.size.val (q.done + i) }) ∧
      ∀ f : FeedId, t.feeds[f] =
        { s.feeds[f] with
          history := s.feeds[f].history.map fun r =>
            { r with
              pins := r.pins -
                pinsOf f r.number (s.outputs[o].ctx.frozen :: s.outputs[o].ctx.unused) } }

/-- SET_RESPONSE replaces the response table and the hold limit whole; FORCE_MODE makes the source MANUAL and
the forced mode pending; RELEASE_MODE makes the source AUTO and takes the table target of the feed's present
state (R131, R139, R140, R179, R181, R182). SET_SLATE replaces the slate page, the injection mode and n, and
makes the injection state ready: ARMED, the counter at n for ONE_SHOT and PERIODIC and 0 otherwise (R143,
R180). -/
def Obligations.ModeAndSlateCommands : Prop :=
  (∀ (w : CellWrite) (o : OutId) (s : State), s.ready w → s.noticeHolds → targetQuad w = some o →
    s.outputs[o].state ≠ .unconfigured → responseParamBad w = none →
    ∃ t, exec (.setResponse w) s = .next t ∧ s.carried 8 w [.output o] t ∧ t.marked (.output o) ∧
      t.outputs[o] =
        { s.outputs[o] with
          modes := { s.outputs[o].modes with table := responseTableOf w, holdLimit := field w.w2 0 16 } }) ∧
  (∀ (w : CellWrite) (o : OutId) (m : Mode) (s : State), s.ready w → s.noticeHolds →
    targetQuad w = some o → s.outputs[o].live = true → field w.w1 0 8 = m.code →
    ∃ t, exec (.forceMode w) s = .next t ∧ s.carried 10 w [.output o] t ∧ t.marked (.output o) ∧
      t.outputs[o] =
        { s.outputs[o] with modes := { s.outputs[o].modes with manual := true, pending := some m } }) ∧
  (∀ (w : CellWrite) (o : OutId) (c : OutputConfig) (s : State), s.ready w → s.noticeHolds →
    targetQuad w = some o → s.outputs[o].live = true → s.outputs[o].config = some c →
    ∃ t, exec (.releaseMode w) s = .next t ∧ s.carried 11 w [.output o] t ∧ t.marked (.output o) ∧
      t.outputs[o] =
        { s.outputs[o] with
          modes :=
            { s.outputs[o].modes with
              manual := false
              pending := (match s.feeds[c.feed].cadence.state with
                | .locked => s.outputs[o].modes.table.locked
                | .seeking => s.outputs[o].modes.table.seeking
                | .lost => s.outputs[o].modes.table.lost
                | .disabled => none).or s.outputs[o].modes.pending } }) ∧
  (∀ (w : CellWrite) (o : OutId) (s : State), s.ready w → s.noticeHolds → targetQuad w = some o →
    s.outputs[o].state ≠ .unconfigured → slateParamBad w = none →
    s.slateOverlap o (slatePageOf w) = none →
    ∃ t, exec (.setSlate w) s = .next t ∧ s.carried 9 w [.output o] t ∧ t.marked (.output o) ∧
      t.outputs[o] =
        { s.outputs[o] with
          modes :=
            { s.outputs[o].modes with
              slatePage := if field w.w1 0 8 = 1 then some (w.w2.setWidth 28) else none
              injection := injectionOf w
              counting := false
              injectN := field w.w1 16 8
              injectLeft := if field w.w1 8 8 = 1 ∨ field w.w1 8 8 = 2 then field w.w1 16 8 else 0 } })

/-- LOAD_COEFFICIENTS makes the bank LOADING, its table unchanged, and its table read is the newest class 3
request, behind at most the mark of the device record; the cell stays ACTIVE with its result unsettled (R94,
R168, R183). That of the two class 3 requests of this one event the device record's mark comes first and the
table read last is the model's choice, log entry 30. -/
def Obligations.LoadCoefficientsQueuesTheTableRead : Prop :=
  ∀ (w : CellWrite) (k : BankId) (s : State), s.ready w → targetBank w = some k →
    s.bankInUse k = false → s.banks[k].loading = none → w.w1.toNat < 2 ^ 28 →
    ∃ t, exec (.loadCoefficients w) s = .next t ∧ s.wrote 12 w t ∧
      t.cells[w.cell] = some (ActiveCommand.fresh w.tag) ∧
      s.changesOnly (CellParts w ++ [.bank k]) t ∧
      t.banks[k] = { table := s.banks[k].table, loading := some w.cell } ∧
      (t.class3 = s.class3 ++ [.table k (w.w1.setWidth 28)] ∨
        t.class3 = s.class3 ++ [.record .device, .table k (w.w1.setWidth 28)])

/-- CLEAR_CONDITIONS clears exactly the conditions of the chosen word that the clear mask and the snapshot both
hold; a live condition that the mask names and the snapshot does not hold stays and sets CLEAR_CONFLICT; the
summary position and the notice line follow (R184, R191, R192, R193). A word that changes marks its record, the
record of one that stays is marked only where it already was, and the command marks the device record (R168,
R195). -/
def Obligations.ClearConditionsClearsWhatTheHostHasSeen : Prop :=
  (∀ (w : CellWrite) (f : FeedId) (s : State), s.ready w → s.noticeHolds → field w.w1 0 8 = f.val →
    ∃ t, exec (.clearConditions w) s = .next t ∧ s.carried 13 w [.feed f, .deviceWord] t ∧
      t.noticeHolds ∧
      t.feeds[f] =
        { s.feeds[f] with
          word := s.feeds[f].word &&& ~~~(halfWord w.w2 &&& halfWord w.w3 &&& 0x007F) } ∧
      (t.marked (.feed f) ↔ s.marked (.feed f) ∨ t.feeds[f].word ≠ s.feeds[f].word) ∧ t.marked .device ∧
      (t.deviceWord &&& deviceConds) =
        (s.deviceWord &&& deviceConds) |||
          (if s.feeds[f].word &&& halfWord w.w3 &&& 0x007F &&& ~~~halfWord w.w2 ≠ 0 then 0x0040 else 0)) ∧
  (∀ (w : CellWrite) (o : OutId) (s : State), s.ready w → s.noticeHolds → field w.w1 0 8 = 4 + o.val →
    ∃ t, exec (.clearConditions w) s = .next t ∧ s.carried 13 w [.output o, .deviceWord] t ∧
      t.noticeHolds ∧
      t.outputs[o] =
        { s.outputs[o] with
          word := s.outputs[o].word &&& ~~~(halfWord w.w2 &&& halfWord w.w3 &&& 0x01FF) } ∧
      (t.marked (.output o) ↔ s.marked (.output o) ∨ t.outputs[o].word ≠ s.outputs[o].word) ∧
      t.marked .device ∧
      (t.deviceWord &&& deviceConds) =
        (s.deviceWord &&& deviceConds) |||
          (if s.outputs[o].word &&& halfWord w.w3 &&& 0x01FF &&& ~~~halfWord w.w2 ≠ 0 then 0x0040
           else 0)) ∧
  (∀ (w : CellWrite) (s : State), s.ready w → s.noticeHolds → field w.w1 0 8 = 8 →
    ∃ t, exec (.clearConditions w) s = .next t ∧ s.carried 13 w [.deviceWord] t ∧ t.noticeHolds ∧
      t.marked .device ∧
      (t.deviceWord &&& deviceConds) =
        (s.deviceWord &&& deviceConds &&& ~~~(halfWord w.w2 &&& halfWord w.w3)) |||
          (if s.deviceWord &&& halfWord w.w3 &&& 0x007F &&& ~~~halfWord w.w2 ≠ 0 then 0x0040 else 0))

/-- SET_MASKS replaces the mask of the chosen word, with the marks that name no condition of it stored clear;
the word stays, its record is marked, and the summary position and the notice line follow (R185, R190, R191,
R192). -/
def Obligations.SetMasksReplacesTheMask : Prop :=
  (∀ (w : CellWrite) (f : FeedId) (s : State), s.ready w → s.noticeHolds → field w.w1 0 8 = f.val →
    ∃ t, exec (.setMasks w) s = .next t ∧ s.carried 14 w [.feed f, .deviceWord] t ∧ t.noticeHolds ∧
      t.marked (.feed f) ∧ t.feeds[f] = { s.feeds[f] with mask := halfWord w.w2 &&& 0x007F } ∧
      (t.deviceWord &&& deviceConds) = (s.deviceWord &&& deviceConds)) ∧
  (∀ (w : CellWrite) (o : OutId) (s : State), s.ready w → s.noticeHolds → field w.w1 0 8 = 4 + o.val →
    ∃ t, exec (.setMasks w) s = .next t ∧ s.carried 14 w [.output o, .deviceWord] t ∧ t.noticeHolds ∧
      t.marked (.output o) ∧ t.outputs[o] = { s.outputs[o] with mask := halfWord w.w2 &&& 0x01FF } ∧
      (t.deviceWord &&& deviceConds) = (s.deviceWord &&& deviceConds)) ∧
  (∀ (w : CellWrite) (s : State), s.ready w → s.noticeHolds → field w.w1 0 8 = 8 →
    ∃ t, exec (.setMasks w) s = .next t ∧ s.carried 14 w [.deviceMask, .deviceWord] t ∧ t.noticeHolds ∧
      t.marked .device ∧ t.deviceMask = halfWord w.w2 &&& 0xFF7F ∧ t.deviceWord = s.deviceWord)

/-- IDENTIFY marks the device record and leaves its cell ACTIVE, waiting for the record's next grant (R186); a
command code that is none of the sixteen settles UNKNOWN with detail 0 (R169). -/
def Obligations.IdentifyAndUnknownCommands : Prop :=
  (∀ (w : CellWrite) (s : State), s.ready w →
    ∃ t, exec (.identify w) s = .next t ∧ s.wrote 15 w t ∧
      t.cells[w.cell] = some { ActiveCommand.fresh w.tag with identify := .waiting } ∧
      t.marked .device ∧ s.changesOnly (CellParts w) t ∧ s.onlyMarks [] t) ∧
  (∀ (code : Byte) (w : CellWrite) (s : State), s.ready w → unknownCode code = true →
    ∃ t, exec (.unknownCommand code w) s = .next t ∧ s.wrote code w t ∧
      t.cells[w.cell] = settledCell w .unknown 0 ∧ s.changesOnly (CellParts w) t ∧ s.onlyMarks [] t)

/-- DEVICE_CLEAR returns every block to its initial state and keeps the tick counter, the references, the
straps, the coefficient tables and the update counts; every other ACTIVE cell that is not granted its result
settles ABORTED, IDLE cells stay IDLE, and the command itself settles DONE (R26, R60, R85, R93, R127, R164,
R187). Every beat waiting in a read queue is answered with black (R120). Class 3 loses its trace entries and
table reads, a waiting result word of an ACTIVE cell bears ABORTED, and all nine records are marked (R83,
R164, R187, R195). An ingest write that waits or is out loses its account, fetches and table reads that are
out are discarded, and the bursts granted stay granted until they are answered: the model's reading of R164,
log entry 16. -/
def Obligations.DeviceClearReturnsEveryBlock : Prop :=
  ∀ (w : CellWrite) (s : State), s.ready w →
    ∃ t, exec (.deviceClear w) s = .next t ∧
      (∀ f : FeedId, t.feeds[f] = { Feed.initial with updates := s.feeds[f].updates }) ∧
      (∀ o : OutId, t.outputs[o] = { Output.initial with updates := s.outputs[o].updates }) ∧
      t.cache = Cache.initial ∧
      (∀ k : BankId, t.banks[k] = { table := s.banks[k].table, loading := none }) ∧
      t.deviceWord = 0 ∧ t.deviceMask = 0 ∧ t.notice = false ∧ t.resetCause = .command ∧
      (∀ o : OutId, t.class1[o] = []) ∧ t.pointer = 0 ∧ t.waitingSlate = [] ∧
      (∀ r : RecordSel, t.marked r) ∧
      t.tick = s.tick ∧ t.refA = s.refA ∧ t.refB = s.refB ∧ t.strap = s.strap ∧ t.resetting = false ∧
      t.deviceUpdates = s.deviceUpdates ∧ t.nextSerial = s.nextSerial + 1 ∧ t.heldRead = s.heldRead ∧
      t.heldWrite = none ∧
      t.granted = s.granted.map (fun g =>
        { g with
          work := match g.work with
            | .bus ⟨serial, b, .ingestWrite _, cells, overruns⟩ =>
              .bus ⟨serial, b, .other, cells, overruns⟩
            | .fetch _ _ | .table _ _ => .discarded
            | x => x }) ∧
      t.class2 = s.class2.map (fun x => match x.kind with
          | .ingestWrite _ => { x with kind := .other }
          | _ => x) ++
        [⟨s.nextSerial, w.burst s.controlBase 16, .control, [w.cell], []⟩] ∧
      (∀ o i bytes, .trace o i bytes ∉ t.class3) ∧ (∀ k page, .table k page ∉ t.class3) ∧
      (∀ c a word, c ≠ w.cell → s.cells[c] = some a → .result c word ∈ t.class3 →
        word = BitVec.ofNat 32 (9 + 256 * a.tag.toNat)) ∧
      (∀ c a, c ≠ w.cell → s.cells[c] = some a →
        (∃ word, .result c word ∈ s.class3) ∨ (a.hostAnswered = true ∧ a.stage = .unrequested) →
        .result c (BitVec.ofNat 32 (9 + 256 * a.tag.toNat)) ∈ t.class3) ∧
      (∃ (u : State) (g : ReadTxn → ReadTxn), t.reads = u.flush.reads ∧ t.writes = u.flush.writes ∧
        t.busOut = u.flush.busOut ∧ u.busOut = s.busOut ∧
        u.writes = s.writes ++ [⟨s.nextSerial, w.id, none⟩] ∧ u.reads = s.reads.map g ∧
        ∀ x ∈ s.reads,
          ((∀ o : OutId, ∀ q ∈ s.outputs[o].builder.queue, q.serial ≠ x.serial) → g x = x) ∧
          ∀ (o : OutId) (c : OutputConfig) (q : QueuedRead), s.outputs[o].config = some c →
            q ∈ s.outputs[o].builder.queue →
            (allOutputs.flatMap fun p => s.outputs[p].builder.queue).filter
              (fun r => r.serial = x.serial) = [q] →
            g x =
              { x with
                ready := true
                beats := x.beats ++ (List.range (q.len - q.done)).map fun i =>
                  windowBeat c (colourByte ⟨64, 512, 512⟩) q.offset q.size.val (q.done + i) }) ∧
      t.cells[w.cell] = settledCell w .done 0 ∧
      ∀ c : CellId, c ≠ w.cell →
        (s.cells[c] = none → t.cells[c] = none) ∧
        (∀ a, s.cells[c] = some a → ∃ b, t.cells[c] = some b ∧ b.tag = a.tag ∧
          (a.stage = .granted → b.abortDue = true) ∧
          (a.stage ≠ .granted → b.settled = some (.aborted, 0)))

/-! ## Bursts at the Bus Port -/

/-- A burst that its channel cannot take has no effect but that it waits at the head of the channel, and holds
back every other burst of the channel (R108, R157). Presented again when the limits allow it, it is taken like
any burst whose channel is free; it is presented again by its sender (log entry 10). -/
def Obligations.FullChannelHoldsTheBurst : Prop :=
  ∀ (b : Burst) (i : Instr) (s : State), i ∈ burstRows b → s.resetting = false →
    (s.fullFor b → s.heldFor b = none →
      exec i s = .next (if b.write then { s with heldWrite := some b } else { s with heldRead := some b })) ∧
    (s.fullFor b → s.heldFor b ≠ none → exec i s = .next s) ∧
    (∀ x, s.heldFor b = some x → x ≠ b → exec i s = .next s) ∧
    (s.heldFor b = some b → ¬ s.fullFor b →
      exec i s = exec i (if b.write then { s with heldWrite := none } else { s with heldRead := none }))

/-- A transaction of class Other, a read of the control block, and any transaction of class Slot region or Slate
region is forwarded unchanged as the newest class 2 request, and nothing else changes; a slot region write
carries the frame lines that it touches (R150 to R153). The class is that of a region of the address map that
holds the page of the burst's address, and Other where none does (R147, R148). -/
def Obligations.ForwardedBurstGoesOutUnchanged : Prop :=
  (∀ (a : Addr) (s : State),
    (s.classOf a = none ↔ ∀ e, s.inMap e → ¬ e.holdsAddr a) ∧
    ∀ r, s.classOf a = some r → ∃ e, s.inMap e ∧ e.region = r ∧ e.holdsAddr a) ∧
  ∀ (b : Burst) (i : Instr) (kind : BusKind) (s : State),
    i ∈ [.passthrough b, .slateRegionWrite b, .controlBlockWrite b] → s.open_ b →
    ((s.classOf b.addr = none ∧ kind = .other) ∨
      (s.classOf b.addr = some .control ∧ b.write = false ∧ kind = .control) ∨
      (∃ f c, s.classOf b.addr = some (.slots f) ∧ s.feeds[f].config = some c ∧
        kind = .slot f (if b.write then slotLines c b else [])) ∨
      (∃ o, s.classOf b.addr = some (.slate o) ∧ kind = .slate)) →
    exec i s = .next
      { s with
        reads := if b.write then s.reads else s.reads ++ [⟨s.nextSerial, b.id, [], false⟩]
        writes := if b.write then s.writes ++ [⟨s.nextSerial, b.id, none⟩] else s.writes
        nextSerial := s.nextSerial + 1
        class2 := s.class2 ++ [⟨s.nextSerial, b, kind, [], []⟩] }

/-- A write to the control block that covers no cell whole takes no command; it sets COMMAND_FORM exactly when
it touches a byte of a cell (R167; the bytes that FIXED and WRAP bursts touch: log entry 13). A whole-cell
write into an ACTIVE cell takes no command, sets COMMAND_OVERRUN and leaves the active command as it is
(R168). Both are forwarded unchanged (R151). A write that covers several cells, or one whole and others in
part, is CommandRowIsItsWholeCellWrite. -/
def Obligations.WritesThatTakeNoCommand : Prop :=
  (∀ (b : Burst) (i : Instr) (s : State), i ∈ [.malformedCommandWrite b, .controlBlockWrite b] →
    s.open_ b → s.noticeHolds → b.write = true → s.classOf b.addr = some .control →
    (∀ c : CellId, b.coversCell s.controlBase c = false) →
    ∃ t, exec i s = .next t ∧
      t.class2 = s.class2 ++ [⟨s.nextSerial, b, .control, [], []⟩] ∧
      t.writes = s.writes ++ [⟨s.nextSerial, b.id, none⟩] ∧
      t.deviceWord = s.deviceWord |||
        (if ∃ c : CellId, b.touches (s.controlBase + 0x400 + 32 * c.val)
            (s.controlBase + 0x400 + 32 * c.val + 32) = true then 0x0020 else 0) ∧
      t.noticeHolds ∧ s.changesOnly [.deviceWord, .class2, .class3, .writes, .serial] t ∧
      s.onlyMarks [] t) ∧
  (∀ (code : Byte) (w : CellWrite) (s : State), s.open_ (w.burst s.controlBase code) → s.noticeHolds →
    s.cells[w.cell] ≠ none →
    ∃ t, exec (.commandOverrun (w.burst s.controlBase code)) s = .next t ∧
      t.class2 = s.class2 ++
        [⟨s.nextSerial, w.burst s.controlBase code, .control, [], [w.cell]⟩] ∧
      t.writes = s.writes ++ [⟨s.nextSerial, w.id, none⟩] ∧
      t.deviceWord = s.deviceWord ||| 0x0010 ∧ t.noticeHolds ∧
      s.changesOnly [.deviceWord, .class2, .class3, .writes, .serial] t ∧ s.onlyMarks [] t)

/-- An ingest write in CAPTURING that is no anchor goes out to the same offset of the current slot, with the
account of the lines it completes and of the finished lines it touches, and nothing else changes (R5, R7, R19,
R24); in IDLE, and in AWAITING or DISCARDING with no anchor, it is dropped and answered OKAY (R7), at once or,
while an earlier write of its ID waits for its answer, after that one (R158). An ingest read goes out to the
same offset of the current slot, else of the most recent slot, else to its own address, and nothing else changes
(R5, R8). -/
def Obligations.IngestBurstsAreSteered : Prop :=
  (∀ (b : Burst) (f : FeedId) (c : FeedConfig) (slot : SlotId) (s : State), s.open_ b → b.write = true →
    b.kind = .incr → 1 ≤ b.len → s.classOf b.addr = some (.ingest f) → s.feeds[f].config = some c →
    s.feeds[f].phase = .capturing → s.feeds[f].current = some slot → anchorAt c (c.offset b) = none →
    0 < c.width → 4 * c.width ≤ c.stride →
    ∃ a : IngestAccount,
      exec (.ingestWrite b) s = .next (s.passedOn b
        { b with
          addr := BitVec.ofNat 40 (c.slotPage.toNat * 4096 + slot.val * c.windowSize + c.offset b)
          lock := false } (.ingestWrite a)) ∧
      a.Covers f c slot s.feeds[f] (c.offset b) (c.offset b + (b.stop - b.addr.toNat))) ∧
  (∀ (b : Burst) (f : FeedId) (c : FeedConfig) (s : State), s.open_ b → b.write = true →
    b.kind = .incr → s.classOf b.addr = some (.ingest f) → s.feeds[f].config = some c →
    (s.feeds[f].phase = .idle ∨
      (s.feeds[f].phase ≠ .capturing ∧ anchorAt c (c.offset b) = none)) →
    ∃ t, exec (.ingestWrite b) s = .next t ∧ s.changesOnly [.reads, .writes, .serial, .busOut] t ∧
      s.answeredAtOnce b .okay t) ∧
  (∀ (b : Burst) (f : FeedId) (c : FeedConfig) (s : State), s.open_ b → b.write = false →
    b.kind = .incr → s.classOf b.addr = some (.ingest f) → s.feeds[f].config = some c →
    exec (.ingestRead b) s = .next (s.passedOn b
      { b with
        addr := match s.feeds[f].current, s.feeds[f].mostRecent with
          | some slot, _ =>
            BitVec.ofNat 40 (c.slotPage.toNat * 4096 + slot.val * c.windowSize + c.offset b)
          | none, some slot =>
            BitVec.ofNat 40 (c.slotPage.toNat * 4096 + slot.val * c.windowSize + c.offset b)
          | none, none => b.addr
        lock := false } .ingestRead))

/-- A frame anchor, a second-field anchor in AWAITING, and one in CAPTURING whose slot already has a record of
its parity, that finds a slot takes it: the slot's generation rises, its old records leave the history, the
FILLING records of the former current slot become PARTIAL, a FILLING record with the next sample number joins
the history's end, the lines of the slot's old generation, and no others, leave the Line Cache, and the write
goes out to the new slot (R7, R9, R10, R11, R14, R16, R17, R18, R22, R24). The sample start runs on the
history that is left: its tracker, stamp and conditions become the feed's, and the bound live outputs hear its
events (R11, R29, R35, R36, R42). -/
def Obligations.FrameAnchorTakesASlot : Prop :=
  ∀ (b : Burst) (f : FeedId) (c : FeedConfig) (a : Anchor) (p : Parity) (slot : SlotId) (r : SampleStart)
    (s : State),
    s.open_ b → b.write = true → b.kind = .incr → s.classOf b.addr = some (.ingest f) →
    s.feeds[f].config = some c → s.feeds[f].phase ≠ .idle → anchorAt c (c.offset b) = some (a, p) →
    (a = .frame ∨ s.feeds[f].phase = .awaiting ∨ (s.feeds[f].phase = .capturing ∧
      ∃ x ∈ s.feeds[f].history, s.feeds[f].current = some x.slot ∧ x.parity = p)) →
    s.feeds[f].chooseSlot c.slots = some slot →
    r = sampleStart c s.tick ((s.feeds[f].history.filter fun x => x.slot ≠ slot).getLast?.map (·.stamp))
      s.feeds[f].cadence →
    ∃ (t : State) (acct : IngestAccount), exec (.ingestWrite b) s = .next t ∧
      (slot.val < c.slots ∧ s.feeds[f].current ≠ some slot ∧ slotPins slot s.feeds[f].history = 0) ∧
      t.feeds[f] =
        { s.feeds[f].ended with
          phase := .capturing, current := some slot, mostRecent := some slot
          generations := s.feeds[f].generations.set slot (s.feeds[f].generations[slot] + 1)
          sampleCounter := s.feeds[f].sampleCounter + 1
          lastSample := some s.feeds[f].sampleCounter
          history := (s.feeds[f].ended.history.filter fun x => x.slot ≠ slot) ++
            [⟨s.feeds[f].sampleCounter, slot, p, r.stamp, .filling, [], 0, 0⟩]
          cadence := r.cadence
          word := s.feeds[f].ended.word ||| r.conds } ∧
      (∀ o : OutId, t.outputs[o] = s.outputs[o].heard f r.events) ∧ t.marked (.feed f) ∧
      s.cache.dropped (fun k => k.feed = f ∧ k.slot = slot ∧ k.generation = s.feeds[f].generations[slot])
        t.cache ∧
      (∀ k : CacheKey, k.feed = f → k.slot = slot → k.generation = s.feeds[f].generations[slot] →
        t.cache.find k = none) ∧
      t.class2 = s.class2 ++ [⟨s.nextSerial,
        { b with
          addr := BitVec.ofNat 40 (c.slotPage.toNat * 4096 + slot.val * c.windowSize + c.offset b)
          lock := false }, .ingestWrite acct, [], []⟩] ∧
      (1 ≤ b.len → 0 < c.width → 4 * c.width ≤ c.stride →
        acct.Covers f c slot t.feeds[f] (c.offset b) (c.offset b + (b.stop - b.addr.toNat))) ∧
      s.changesOnly
        ([.feed f, .cache, .deviceWord, .class2, .class3, .writes, .serial] ++ outputParts) t ∧
      s.onlyMarks (.feed f :: outputParts) t

/-- An anchor that takes no new slot: one that finds none is discarded, counted, and ends the current sample
(R15, R16, R22); a second-field anchor in CAPTURING adds its record to the current slot, whose generation stays;
one in DISCARDING is counted (R16). A write whose anchor is discarded is answered OKAY, at once or, while an
earlier write of its ID waits, after that one (R7, R158). Every anchor takes a sample number (R10), and its
sample start runs on the history as it stands: its tracker, stamp and conditions become the feed's, and the
bound live outputs hear its events (R11, R29, R35, R36, R42). -/
def Obligations.AnchorsWithoutANewSlot : Prop :=
  ∀ (b : Burst) (f : FeedId) (c : FeedConfig) (a : Anchor) (p : Parity) (r : SampleStart) (x : Feed)
    (s : State),
    s.open_ b → b.write = true → b.kind = .incr → s.classOf b.addr = some (.ingest f) → x = s.feeds[f] →
    x.config = some c → x.phase ≠ .idle → anchorAt c (c.offset b) = some (a, p) →
    r = sampleStart c s.tick (x.history.getLast?.map (·.stamp)) x.cadence →
    ((a = .frame ∨ x.phase = .awaiting ∨ (x.phase = .capturing ∧
        ∃ y ∈ x.history, x.current = some y.slot ∧ y.parity = p)) →
      x.chooseSlot c.slots = none →
      ∃ t, exec (.ingestWrite b) s = .next t ∧
        t.feeds[f] =
          { x.ended with
            phase := .discarding, current := none
            discards := if x.discards < 65535 then x.discards + 1 else x.discards
            sampleCounter := x.sampleCounter + 1
            lastSample := some x.sampleCounter
            cadence := r.cadence
            word := x.ended.word ||| 0x0010 ||| r.conds } ∧
        (∀ o : OutId, t.outputs[o] = s.outputs[o].heard f r.events) ∧ t.marked (.feed f) ∧
        s.answeredAtOnce b .okay t ∧
        s.changesOnly
          ([.feed f, .deviceWord, .class3, .reads, .writes, .serial, .busOut] ++ outputParts) t ∧
        s.onlyMarks (.feed f :: outputParts) t) ∧
    (a = .second → x.phase = .discarding →
      ∃ t, exec (.ingestWrite b) s = .next t ∧
        t.feeds[f] =
          { x with
            discards := if x.discards < 65535 then x.discards + 1 else x.discards
            sampleCounter := x.sampleCounter + 1
            lastSample := some x.sampleCounter
            cadence := r.cadence
            word := x.word ||| 0x0010 ||| r.conds } ∧
        (∀ o : OutId, t.outputs[o] = s.outputs[o].heard f r.events) ∧ t.marked (.feed f) ∧
        s.answeredAtOnce b .okay t ∧
        s.changesOnly
          ([.feed f, .deviceWord, .class3, .reads, .writes, .serial, .busOut] ++ outputParts) t ∧
        s.onlyMarks (.feed f :: outputParts) t) ∧
    (∀ slot : SlotId, a = .second → x.phase = .capturing → x.current = some slot →
      (∀ y ∈ x.history, y.slot = slot → y.parity ≠ p) →
      ∃ (t : State) (acct : IngestAccount), exec (.ingestWrite b) s = .next t ∧
        t.feeds[f] =
          { x with
            history := x.history ++ [⟨x.sampleCounter, slot, p, r.stamp, .filling, [], 0, 0⟩]
            sampleCounter := x.sampleCounter + 1
            lastSample := some x.sampleCounter
            cadence := r.cadence
            word := x.word ||| r.conds } ∧
        (∀ o : OutId, t.outputs[o] = s.outputs[o].heard f r.events) ∧ t.marked (.feed f) ∧
        t.class2 = s.class2 ++ [⟨s.nextSerial,
          { b with
            addr := BitVec.ofNat 40 (c.slotPage.toNat * 4096 + slot.val * c.windowSize + c.offset b)
            lock := false }, .ingestWrite acct, [], []⟩] ∧
        (1 ≤ b.len → 0 < c.width → 4 * c.width ≤ c.stride →
          acct.Covers f c slot t.feeds[f] (c.offset b) (c.offset b + (b.stop - b.addr.toNat))) ∧
        s.changesOnly ([.feed f, .deviceWord, .class2, .class3, .writes, .serial] ++ outputParts) t ∧
        s.onlyMarks (.feed f :: outputParts) t)

/-- A read of the window of an output that is not RUNNING is answered at once, every beat OKAY: the fill colour
in the order Cb, Y, Cr, Y, in containers of two bytes, in the picture bytes of the frame's lines, and zero in
the padding and beyond the last line (R103, R108, R109, R110). -/
def Obligations.IdleWindowReadsTheFillColour : Prop :=
  ∀ (b : Burst) (o : OutId) (c : OutputConfig) (s : State), s.open_ b → s.noticeHolds →
    s.serialsHold → b.write = false → b.kind = .incr → 1 ≤ b.len → s.classOf b.addr = some (.window o) →
    s.outputs[o].config = some c → s.outputs[o].state ≠ .running → s.outputs[o].builder.queue = [] →
    s.outputs[o].builder.run = none →
    exec (.outputRead b) s = .next (State.flush
      { s with
        nextSerial := s.nextSerial + 1
        reads := s.reads ++ [⟨s.nextSerial, b.id,
          (List.range b.len).map (windowBeat c (colourByte s.outputs[o].modes.fill)
            (b.addr.toNat - c.windowPage.toNat * 4096) b.size.val), true⟩] })

/-- A read of a RUNNING output's picture whose line no buffer holds starts a build: the build fixes the line,
the held context with its records and weight, the source generations, the geometry, the fill colour and the
bank's table, and looks up its distinct tap lines in order; its buffer is BUILDING; the use count of the
context held for the line's parity rises; the burst waits at the queue's head (R77, R86, R92, R109, R112,
R113, R115). That the build keeps its context by its place, not by its id: log entry 27. -/
def Obligations.ReadOfAMissingLineStartsABuild : Prop :=
  ∀ (b : Burst) (o : OutId) (c : OutputConfig) (fc : FeedConfig) (x : Context) (ra rb : RecordRef)
    (w y : Nat) (s : State), s.open_ b → s.noticeHolds → b.write = false → b.kind = .incr → 1 ≤ b.len →
    s.classOf b.addr = some (.window o) → s.outputs[o].config = some c →
    s.feeds[c.feed].config = some fc → s.outputs[o].state = .running →
    s.outputs[o].builder.queue = [] → s.outputs[o].builder.run = none →
    s.outputs[o].builder.build = none → w = b.addr.toNat - c.windowPage.toNat * 4096 → y = w / c.stride →
    inPicture c w → s.outputs[o].ctx.held (c.lineParity y) = some x →
    (x.kind = .convert ∨ x.kind = .freeze) → x.a = some ra → x.b = some rb →
    s.outputs[o].builder.lacks y x →
    ∃ u : State, exec (.outputRead b) s = .next u.flush ∧
      State.startsBuild o c fc x ra rb y
        { s with
          nextSerial := s.nextSerial + 1
          reads := s.reads ++ [⟨s.nextSerial, b.id, [], false⟩]
          outputs := s.outputs.set o
            { s.outputs[o] with
              builder := { s.outputs[o].builder with queue := [⟨s.nextSerial, w, b.size, b.len, 0⟩] } } } u

/-- What a read of an output's window does. Behind other bursts it joins the queue (R108). Into an empty queue
it joins and its head beat is taken: what that does, beat by beat, up to a build, a slate run or a wait, is
TheHeadBeatAndThePrefetch; its answered beats go up (R109, R159). On a RUNNING output the beats are taken in
order: each that has no picture byte, or whose context is absent, FILL or EMPTY, or SLATE without a page, or
whose line a buffer holds READY, is answered at once, the last buffer read from becoming the last touched; one
whose line a build in progress delays waits, and the burst with it (R103, R109 to R112). One of a SLATE line
fixes a run of the beats in its line, with one read for each page of the slate region that their picture bytes
touch, in address order; each read joins class 1, or waits while a slate write of its page is listed (R111,
R153; a listed write stands for its first page alone: log entry 39). -/
def Obligations.ReadsOfAnOutputWindow : Prop :=
  (∀ (b : Burst) (o : OutId) (c : OutputConfig) (s : State), s.open_ b → s.noticeHolds →
    b.write = false → b.kind = .incr → s.classOf b.addr = some (.window o) →
    s.outputs[o].config = some c → s.outputs[o].builder.queue ≠ [] →
    exec (.outputRead b) s = .next
      { s with
        nextSerial := s.nextSerial + 1
        reads := s.reads ++ [⟨s.nextSerial, b.id, [], false⟩]
        outputs := s.outputs.set o
          { s.outputs[o] with
            builder :=
              { s.outputs[o].builder with
                queue := s.outputs[o].builder.queue ++
                  [⟨s.nextSerial, b.addr.toNat - c.windowPage.toNat * 4096, b.size, b.len, 0⟩] } } }) ∧
  (∀ (b : Burst) (o : OutId) (c : OutputConfig) (s : State), s.open_ b → s.noticeHolds →
    b.write = false → b.kind = .incr → s.classOf b.addr = some (.window o) →
    s.outputs[o].config = some c → s.outputs[o].builder.queue = [] →
    exec (.outputRead b) s = .next (State.flush (State.takeHead o
      { s with
        nextSerial := s.nextSerial + 1
        reads := s.reads ++ [⟨s.nextSerial, b.id, [], false⟩]
        outputs := s.outputs.set o
          { s.outputs[o] with
            builder :=
              { s.outputs[o].builder with
                queue := [⟨s.nextSerial, b.addr.toNat - c.windowPage.toNat * 4096, b.size, b.len, 0⟩] } } }))) ∧
  (∀ (b : Burst) (o : OutId) (c : OutputConfig) (w n : Nat) (src : Nat → Option (Fin 2)) (s : State),
    s.open_ b → s.noticeHolds → s.serialsHold → b.write = false → b.kind = .incr → 1 ≤ b.len →
    s.classOf b.addr = some (.window o) → s.outputs[o].config = some c → s.outputs[o].state = .running →
    s.outputs[o].builder.queue = [] → s.outputs[o].builder.run = none →
    w = b.addr.toNat - c.windowPage.toNat * 4096 → n ≤ b.len →
    (∀ i, i < n → s.outputs[o].atOnce c (beatStart w b.size.val i) (src i)) →
    (n < b.len → inPicture c (beatStart w b.size.val n) ∧
      ∃ d x, s.outputs[o].builder.build = some d ∧
        s.outputs[o].ctx.held (c.lineParity (beatStart w b.size.val n / c.stride)) = some x ∧
        (x.kind = .convert ∨ x.kind = .freeze) ∧
        s.outputs[o].builder.lacks (beatStart w b.size.val n / c.stride) x) →
    exec (.outputRead b) s = .next (State.flush
      { s with
        nextSerial := s.nextSerial + 1
        reads := s.reads ++ [⟨s.nextSerial, b.id,
          (List.range n).map (fun i =>
            windowBeat c (s.outputs[o].picture (src i)) w b.size.val i), decide (n = b.len)⟩]
        outputs := s.outputs.set o
          { s.outputs[o] with
            builder :=
              { s.outputs[o].builder with
                queue := if n = b.len then [] else [⟨s.nextSerial, w, b.size, b.len, n⟩]
                lastTouched := ((List.range n).filterMap fun i =>
                  if inPicture c (beatStart w b.size.val i) then src i else none).getLast?.or
                    s.outputs[o].builder.lastTouched } } })) ∧
  (∀ (b : Burst) (o : OutId) (c : OutputConfig) (x : Context) (page : Page) (w : Nat) (q : QueuedRead)
    (s : State), s.open_ b → s.noticeHolds → b.write = false → b.kind = .incr → 1 ≤ b.len →
    s.classOf b.addr = some (.window o) → s.outputs[o].config = some c → s.outputs[o].state = .running →
    s.outputs[o].builder.queue = [] → s.outputs[o].builder.run = none →
    w = b.addr.toNat - c.windowPage.toNat * 4096 → inPicture c w →
    s.outputs[o].ctx.held (c.lineParity (w / c.stride)) = some x → x.kind = .slate →
    s.outputs[o].modes.slatePage = some page → q = ⟨s.nextSerial, w, b.size, b.len, 0⟩ →
    ∃ u : State, exec (.outputRead b) s = .next u.flush ∧
      State.startsRun o c page q
        { s with
          nextSerial := s.nextSerial + 1
          reads := s.reads ++ [⟨s.nextSerial, b.id, [], false⟩]
          outputs := s.outputs.set o
            { s.outputs[o] with builder := { s.outputs[o].builder with queue := [q] } } } u)

/-- What the head beat of a read queue does when it is taken, and when a prefetch starts. An empty queue, or a
run in flight, leaves all as it is. A head beat that has no picture byte, or whose output is not RUNNING, or
whose context is absent, FILL or EMPTY, or SLATE without a page, or whose line a buffer holds READY, is answered
at once, the buffer read from becoming the last touched, and the next beat is taken; one whose line a build in
progress delays waits; without a build in progress it starts the build of its line; one of a SLATE line with a
page fixes a run (R108 to R112, R115; that a run keeps the head: log entry 22; that a listed slate write stands
for its first page alone: log entry 39). A prefetch of a line below Ho starts its build when the output is
RUNNING, no beat waits, no build is in progress, the line's context is CONVERT or FREEZE and no buffer holds the
line READY for it; otherwise nothing happens (R118). -/
def Obligations.TheHeadBeatAndThePrefetch : Prop :=
  (∀ (o : OutId) (s : State),
    (s.outputs[o].builder.queue = [] ∨ s.outputs[o].builder.run ≠ none) → s.takeHead o = s) ∧
  (∀ (o : OutId) (c : OutputConfig) (q : QueuedRead) (rest : List QueuedRead) (x y : Nat) (s : State),
    s.noticeHolds → s.outputs[o].config = some c → s.outputs[o].builder.queue = q :: rest →
    s.outputs[o].builder.run = none → q.done < q.len → x = beatStart q.offset q.size.val q.done →
    y = x / c.stride →
    (∀ src : Option (Fin 2),
      ((s.outputs[o].state ≠ .running ∧ src = none) ∨
        (s.outputs[o].state = .running ∧ s.outputs[o].atOnce c x src)) →
      s.takeHead o = State.takeHead o
        { s with
          reads := s.reads.map fun z =>
            if z.serial = q.serial then
              { z with
                ready := decide (q.done + 1 = q.len)
                beats := z.beats ++
                  [windowBeat c (s.outputs[o].picture src) q.offset q.size.val q.done] }
            else z
          outputs := s.outputs.set o
            { s.outputs[o] with
              builder :=
                { s.outputs[o].builder with
                  queue := if q.done + 1 = q.len then rest else { q with done := q.done + 1 } :: rest
                  lastTouched := (if inPicture c x then src else none).or
                    s.outputs[o].builder.lastTouched } } }) ∧
    (∀ k : Context, s.outputs[o].state = .running → inPicture c x →
      s.outputs[o].ctx.held (c.lineParity y) = some k →
      ((k.kind = .convert ∨ k.kind = .freeze) → s.outputs[o].builder.lacks y k →
        s.outputs[o].builder.build ≠ none → s.takeHead o = s) ∧
      (∀ (fc : FeedConfig) (ra rb : RecordRef), (k.kind = .convert ∨ k.kind = .freeze) →
        s.outputs[o].builder.lacks y k → s.outputs[o].builder.build = none →
        s.feeds[c.feed].config = some fc → k.a = some ra → k.b = some rb →
        s.startsBuild o c fc k ra rb y (s.takeHead o)) ∧
      (∀ page : Page, k.kind = .slate → s.outputs[o].modes.slatePage = some page →
        s.startsRun o c page q (s.takeHead o)))) ∧
  (∀ (o : OutId) (c : OutputConfig) (y : Nat) (s : State), s.noticeHolds → s.outputs[o].config = some c →
    (∀ (fc : FeedConfig) (k : Context) (ra rb : RecordRef), y < c.lines → s.outputs[o].state = .running →
      s.outputs[o].builder.queue = [] → s.outputs[o].builder.build = none →
      s.outputs[o].ctx.held (c.lineParity y) = some k → (k.kind = .convert ∨ k.kind = .freeze) →
      s.outputs[o].builder.lacks y k → s.feeds[c.feed].config = some fc → k.a = some ra → k.b = some rb →
      s.startsBuild o c fc k ra rb y (s.prefetch o y)) ∧
    ((c.lines ≤ y ∨ s.outputs[o].state ≠ .running ∨ s.outputs[o].builder.queue ≠ [] ∨
        s.outputs[o].builder.build ≠ none ∨ s.outputs[o].ctx.held (c.lineParity y) = none ∨
        (∃ k, s.outputs[o].ctx.held (c.lineParity y) = some k ∧
          ((k.kind ≠ .convert ∧ k.kind ≠ .freeze) ∨ ¬ s.outputs[o].builder.lacks y k))) →
      s.prefetch o y = s))

/-- A burst into an ingest or an output window that is not INCR, and a write into an output window, is answered
SLVERR, a read with its whole length of zero beats, at once or, while an earlier burst of its ID and direction
waits, after that one (R158); BURST_REFUSED or WINDOW_WRITE is set, and nothing else happens (R154, R155,
R156). -/
def Obligations.RefusedBurstIsAnsweredSlverr : Prop :=
  ∀ (b : Burst) (i : Instr) (s : State), i ∈ [.refusedBurst b, .outputWindowWrite b] → s.open_ b →
    s.noticeHolds →
    ((∃ f, s.classOf b.addr = some (.ingest f)) ∨ (∃ o, s.classOf b.addr = some (.window o))) →
    (b.kind ≠ .incr ∨ (b.write = true ∧ ∃ o, s.classOf b.addr = some (.window o))) →
    ∃ t, exec i s = .next t ∧ t.noticeHolds ∧
      t.deviceWord = s.deviceWord ||| (if b.kind ≠ .incr then 0x0008 else 0x0004) ∧
      s.changesOnly [.deviceWord, .class3, .reads, .writes, .serial, .busOut] t ∧ s.onlyMarks [] t ∧
      s.answeredAtOnce b .slverr t

/-! ## The arbiter and the responses at the Memory Port -/

/-- With 64 bursts outstanding nothing is granted. Otherwise the oldest class 1 request of the first output that
has one, from the pointer round, is granted under ID 256 plus its output and the pointer moves past that output;
with class 1 empty the oldest class 2 request is granted under its Bus Port ID, unless it is held: a read of the
control block while the write of a status record or a trace entry that it overlaps, and no other, is granted and
not answered (R150, R151, R160, R161; only reads classed Control block are held: the model's choice, log entry
40). With nothing to grant, the grant changes nothing. -/
def Obligations.GrantsByPriority : Prop :=
  (∀ s : State, s.resetting = false → 64 ≤ s.granted.length → exec .memoryPortGrant s = .next s) ∧
  (∀ (s : State) (o : OutId) (k : Fin 4) (x : Fetch) (rest : List Fetch), s.resetting = false →
    s.granted.length < 64 → o = s.pointer + k → s.class1[o] = x :: rest →
    (∀ j : Fin 4, j < k → s.class1[s.pointer + j] = []) →
    exec .memoryPortGrant s = .next
      { s with
        class1 := s.class1.set o rest
        pointer := o + 1
        granted := s.granted ++ [⟨BitVec.ofNat 9 (256 + o.val), false, .fetch o x⟩] }) ∧
  (∀ (s : State) (x : Forwarded) (rest : List Forwarded), s.resetting = false →
    s.granted.length < 64 → (∀ o : OutId, s.class1[o] = []) → s.class2 = x :: rest →
    ¬ s.readHeld x →
    exec .memoryPortGrant s = .next
      { s with
        class2 := rest
        granted := s.granted ++ [⟨x.burst.id.setWidth 9, x.burst.write, .bus x⟩] }) ∧
  (∀ s : State, s.resetting = false → (∀ o : OutId, s.class1[o] = []) →
    (s.class2 = [] ∨ ∃ x rest, s.class2 = x :: rest ∧ s.readHeld x) → s.class3 = [] →
    exec .memoryPortGrant s = .next s)

/-- With class 1 empty and class 2 empty or its head held, the oldest class 3 request is granted under ID 260: a
status record with its count advanced, its 64 bytes as they stand, and for the device record the IDENTIFY
commands that wait; a trace entry with its content; a result word; a table read (R150, R161, R162, R186, R195,
R205). A record or trace write that a granted host read overlaps waits (R151; only reads classed Control block
hold it: the model's choice, log entry 40), and so does a result word whose cell an unanswered overrunning write
covers (R168). -/
def Obligations.GrantsOfClassThree : Prop :=
  ∀ (s : State) (h : Housekeeping) (rest : List Housekeeping), s.resetting = false →
    s.granted.length < 64 → (∀ o : OutId, s.class1[o] = []) →
    (s.class2 = [] ∨ ∃ x xs, s.class2 = x :: xs ∧ s.readHeld x) → s.class3 = h :: rest →
    (s.thirdHeld h → exec .memoryPortGrant s = .next s) ∧
    (¬ s.thirdHeld h →
      ∃ t, exec .memoryPortGrant s = .next t ∧ t.class3 = rest ∧
        match h with
        | .record r =>
          (∃ cells,
            t.granted = s.granted ++ [⟨260, true, .record r (t.recordContent r) cells⟩] ∧
            ∀ c, c ∈ cells ↔ r = .device ∧ ∃ a, s.cells[c] = some a ∧ a.identify = .waiting) ∧
          (t.recordContent r).length = 64 ∧
          (match r with
            | .device => t.deviceUpdates = s.deviceUpdates + 1
            | .feed f => t.feeds[f] = { s.feeds[f] with updates := s.feeds[f].updates + 1 }
            | .output o => t.outputs[o] = { s.outputs[o] with updates := s.outputs[o].updates + 1 }) ∧
          holdsAt (t.recordContent r) 62 2
            (match r with
              | .device => (s.deviceUpdates + 1).toNat
              | .feed f => (s.feeds[f].updates + 1).toNat
              | .output o => (s.outputs[o].updates + 1).toNat) ∧
          (∀ (c : CellId) (a : ActiveCommand), s.cells[c] = some a →
            t.cells[c] = some (if r = .device ∧ a.identify = .waiting then { a with identify := .granted }
              else a)) ∧
          (∀ c : CellId, s.cells[c] = none → t.cells[c] = none) ∧
          s.changesOnly ([.class3, .granted] ++
            (match r with
              | .device => .deviceUpdates :: allCells.map .cell
              | .feed f => [.feed f]
              | .output o => [.output o])) t
        | .trace o i bytes =>
          t.granted = s.granted ++ [⟨260, true, .trace o i bytes⟩] ∧ s.changesOnly [.class3, .granted] t
        | .result c w =>
          t.granted = s.granted ++ [⟨260, true, .result c w⟩] ∧
          (∀ a, s.cells[c] = some a → t.cells[c] = some { a with stage := .granted }) ∧
          (s.cells[c] = none → t.cells[c] = none) ∧
          s.changesOnly [.class3, .granted, .cell c] t
        | .table k page =>
          t.granted = s.granted ++ [⟨260, false, .table k page⟩] ∧ s.changesOnly [.class3, .granted] t)

/-- The bytes of the nine status records and of a trace entry: every field at its offset and in its size, little
endian, in the codes of R202, and zero in every other byte (R82, R196, R197, R198, R202, R205). -/
def Obligations.RecordsAndTracesAreLaidOut : Prop :=
  (∀ (s : State) (d : List Byte), d = s.recordContent .device → d.length = 64 ∧
    holdsAt d 0 2 0x4C40 ∧ holdsAt d 2 1 1 ∧
    holdsAt d 3 1 (match s.resetCause with | .power => 1 | .line => 2 | .command => 3) ∧
    holdsAt d 4 2 s.strap.toNat ∧
    holdsAt d 6 1 ((if s.refA.present then 1 else 0) + (if s.refB.present then 2 else 0)) ∧
    zeroAt d 7 8 ∧ holdsAt d 8 4 (s.tick.toNat / 256) ∧ holdsAt d 12 2 s.deviceWord.toNat ∧
    holdsAt d 14 2 s.deviceMask.toNat ∧
    (∀ c : CellId, ((d.getD (16 + c.val / 8) 0).getLsbD (c.val % 8) = s.cells[c].isSome)) ∧
    zeroAt d 18 62 ∧ holdsAt d 62 2 s.deviceUpdates.toNat) ∧
  (∀ (s : State) (f : FeedId) (x : Feed) (d : List Byte), x = s.feeds[f] → d = s.recordContent (.feed f) →
    d.length = 64 ∧
    holdsAt d 0 1 (match x.cadence.state with
      | .disabled => 0 | .seeking => 1 | .locked => 2 | .lost => 3) ∧
    holdsAt d 1 1 (if x.config = none then 0 else 1) ∧ holdsAt d 2 1 x.cadence.regularRun ∧
    holdsAt d 3 1 x.history.length ∧ holdsAt d 4 4 x.cadence.period ∧
    holdsAt d 8 4 x.sampleCounter.toNat ∧
    (x.lastSample = none → holdsAt d 12 4 0xFFFFFFFF) ∧
    (∀ n, x.lastSample = some n → holdsAt d 12 4 n.toNat) ∧
    holdsAt d 16 1 x.cadence.irregularLeft ∧ zeroAt d 17 18 ∧ holdsAt d 18 2 x.discards ∧
    holdsAt d 20 2 x.partials ∧ holdsAt d 22 2 x.cadence.irregularCount ∧ holdsAt d 24 2 x.word.toNat ∧
    holdsAt d 26 2 x.mask.toNat ∧ zeroAt d 28 62 ∧ holdsAt d 62 2 x.updates.toNat) ∧
  (∀ (s : State) (o : OutId) (x : Output) (d : List Byte), x = s.outputs[o] →
    d = s.recordContent (.output o) → d.length = 64 ∧
    holdsAt d 0 1 (match x.state with
      | .unconfigured => 0 | .stopped => 1 | .starting => 2 | .running => 3) ∧
    holdsAt d 1 1 (match x.modes.mode with | .convert => 1 | .freeze => 2 | .fill => 3) ∧
    holdsAt d 2 1 (if x.modes.manual then 1 else 0) ∧
    holdsAt d 3 1 (match x.modes.pending with
      | none => 0 | some .convert => 1 | some .freeze => 2 | some .fill => 3) ∧
    holdsAt d 4 1 (match x.modes.injection with
      | .none_ => 0 | .oneShot => 1 | .periodic => 2 | .continuous => 3) ∧
    holdsAt d 5 1 x.modes.injectLeft ∧ holdsAt d 6 1 x.modes.holdCount ∧
    holdsAt d 7 1 (match x.report.kind with
      | .convert => 1 | .freeze => 2 | .fill => 3 | .slate => 4 | .empty => 5) ∧
    holdsAt d 8 2 x.report.weight ∧
    holdsAt d 10 1 ((if x.report.flags.underrun then 1 else 0) + (if x.report.flags.excess then 2 else 0) +
      (if x.report.flags.gap then 4 else 0) + (if x.report.flags.nearest then 8 else 0)) ∧
    zeroAt d 11 12 ∧ holdsAt d 12 4 x.report.latchTick.toNat ∧ holdsAt d 16 2 x.report.lastClip ∧
    holdsAt d 18 2 x.ctx.underruns ∧ holdsAt d 20 2 x.report.fetchErrors ∧
    holdsAt d 22 1 x.ctx.traceIndex ∧ zeroAt d 23 24 ∧ holdsAt d 24 4 x.ctx.counter.toNat ∧
    holdsAt d 28 2 x.word.toNat ∧ holdsAt d 30 2 x.mask.toNat ∧ zeroAt d 32 62 ∧
    holdsAt d 62 2 x.updates.toNat) ∧
  (∀ (x : Context) (d : List Byte), d = x.traceEntry → d.length = 16 ∧ holdsAt d 0 4 x.number.toNat ∧
    (x.a = none → holdsAt d 4 4 0xFFFFFFFF) ∧ (∀ r, x.a = some r → holdsAt d 4 4 r.number.toNat) ∧
    (x.b = none → holdsAt d 8 4 0xFFFFFFFF) ∧ (∀ r, x.b = some r → holdsAt d 8 4 r.number.toNat) ∧
    holdsAt d 12 2 x.weight ∧
    holdsAt d 14 1 (match x.kind with
      | .convert => 1 | .freeze => 2 | .fill => 3 | .slate => 4 | .empty => 5) ∧
    holdsAt d 15 1 ((if x.flags.underrun then 1 else 0) + (if x.flags.excess then 2 else 0) +
      (if x.flags.gap then 4 else 0) + (if x.flags.nearest then 8 else 0) +
      64 * (match x.parity with | .top => 0 | .bottom => 1 | .whole => 2)))

/-- The response to a forwarded burst goes up the Bus Port unchanged, when its ID's order allows, and nothing
else happens for class Other and for an ingest read; the response to a command's own write lets its settled
result be requested (R150, R163, R170). -/
def Obligations.ForwardedResponseGoesUp : Prop :=
  (∀ (id : BitVec 9) (beats : List ReadBeat) (g : Granted) (x : Forwarded) (s : State),
    s.answers (.read id beats) g → g.work = .bus x → x.burst.write = false →
    exec (.forwardedResponse (.read id beats)) s = .next (State.flush
      { s.without (.read id beats) with
        reads := s.reads.map fun y =>
          if y.serial = x.serial then { y with beats := beats, ready := true } else y })) ∧
  (∀ (id : BitVec 9) (resp : Resp) (g : Granted) (x : Forwarded) (s : State),
    s.answers (.write id resp) g → g.work = .bus x → x.burst.write = true →
    (x.kind = .other ∨ (x.kind = .control ∧ x.cells = [])) →
    exec (.forwardedResponse (.write id resp)) s = .next (State.flush
      { s.without (.write id resp) with
        writes := s.writes.map fun y =>
          if y.serial = x.serial then { y with resp := some resp } else y })) ∧
  (∀ (id : BitVec 9) (resp : Resp) (g : Granted) (x : Forwarded) (c : CellId) (a : ActiveCommand)
    (s : State), s.answers (.write id resp) g → g.work = .bus x → x.burst.write = true →
    x.kind = .control → x.cells = [c] → s.cells[c] = some a →
    ∃ t, exec (.forwardedResponse (.write id resp)) s = .next t ∧ s.answeredUp x.serial resp t ∧
      t.granted = (s.without (.write id resp)).granted ∧
      s.changesOnly ([.cell c, .class3] ++ replyParts) t ∧
      (∀ code detail, a.settled = some (code, detail) → a.hostAnswered = false →
        a.stage = .unrequested →
        t.cells[c] = some { a with hostAnswered := true, stage := .waiting } ∧
        t.class3 = s.class3 ++ [.result c
          (BitVec.ofNat 32 (code.code.toNat + 256 * a.tag.toNat + 65536 * detail.toNat))]) ∧
      (a.settled = none →
        t.cells[c] = some { a with hostAnswered := true } ∧ t.class3 = s.class3))

/-- The response to an ingest write goes up unchanged (R20, R23). At OKAY every completed line of a FILLING
record is flagged done once, and the record is COMPLETE when all its lines are done (R20, R21); at an error
INGEST_ERROR is set and nothing is flagged (R23); in both cases the finished lines that the write touched
leave the Line Cache, and every other line stays (R24, R126). -/
def Obligations.IngestResponseMarksItsLines : Prop :=
  ∀ (id : BitVec 8) (resp : Resp) (g : Granted) (x : Forwarded) (a : IngestAccount) (c : FeedConfig)
    (s : State), s.answers (.write (id.setWidth 9) resp) g → g.work = .bus x →
    x.burst.write = true → x.kind = .ingestWrite a → s.feeds[a.feed].config = some c → s.noticeHolds →
    ∃ t, exec (.ingestWriteResponse id resp) s = .next t ∧ s.answeredUp x.serial resp t ∧
      t.granted = (s.without (.write (id.setWidth 9) resp)).granted ∧
      ((resp = .okay ∨ resp = .exokay) →
        s.changesOnly ([.feed a.feed, .cache, .class3] ++ replyParts) t ∧
        t.feeds[a.feed] =
          { s.feeds[a.feed] with
            history := a.completions.foldl (fun h e => h.map fun r =>
              if r.number = e.1 ∧ r.status = .filling ∧ e.2 ∉ r.lineMap then
                { r with
                  lineMap := r.lineMap ++ [e.2]
                  linesDone := r.linesDone + 1
                  status := if r.linesDone + 1 = c.sampleLines then .complete else .filling }
              else r) s.feeds[a.feed].history }) ∧
      ((resp = .slverr ∨ resp = .decerr) →
        s.changesOnly ([.feed a.feed, .cache, .class3, .deviceWord] ++ replyParts) t ∧
        t.feeds[a.feed] = { s.feeds[a.feed] with word := s.feeds[a.feed].word ||| 0x0040 }) ∧
      s.onlyMarks [.feed a.feed] t ∧
      s.cache.dropped (fun k => k.feed = a.feed ∧ k.slot = a.slot ∧ k.generation = a.generation ∧
        k.line ∈ a.notices) t.cache ∧
      ∀ k : CacheKey, k.feed = a.feed → k.slot = a.slot → k.generation = a.generation →
        k.line ∈ a.notices → t.cache.find k = none

/-- A write into a slot region is forwarded with every frame line of every slot that it touches, and its
response goes up unchanged and drops those lines from the Line Cache whatever their generation, every
other line staying (R126, R152; the bytes that FIXED and WRAP bursts touch: log entry 13; the lines are those
of the configuration at acceptance: log entry 24). The response to a slate region write goes up unchanged and
takes the write from the slate-write list, and the waiting slate reads whose page no listed write holds any
more join class 1 in their order; the others go on waiting (R153; a listed write stands for its first page
alone: log entry 39). -/
def Obligations.RegionWriteResponses : Prop :=
  (∀ (b : Burst) (c : FeedConfig) (slot : SlotId) (y : Nat), c.slotPage.toNat * 4096 ≤ b.low →
    b.low < b.stop → 0 < c.stride →
    ((slot, y) ∈ slotLines c b ↔
      slot.val < c.slots ∧ y < c.lines ∧
        b.low < c.slotPage.toNat * 4096 + slot.val * c.windowSize + (y + 1) * c.stride ∧
        c.slotPage.toNat * 4096 + slot.val * c.windowSize + y * c.stride < b.stop)) ∧
  (∀ (b : Burst) (f : FeedId) (c : FeedConfig) (s : State), s.open_ b → b.write = true →
    s.classOf b.addr = some (.slots f) → s.feeds[f].config = some c →
    exec (.passthrough b) s = .next (s.passedOn b b (.slot f (slotLines c b)))) ∧
  (∀ (id : BitVec 8) (resp : Resp) (g : Granted) (x : Forwarded) (f : FeedId)
    (lines : List (SlotId × Nat)) (s : State), s.answers (.write (id.setWidth 9) resp) g →
    g.work = .bus x → x.burst.write = true → x.kind = .slot f lines →
    ∃ t, exec (.slotRegionWriteResponse id resp) s = .next t ∧ s.answeredUp x.serial resp t ∧
      t.granted = (s.without (.write (id.setWidth 9) resp)).granted ∧
      s.changesOnly (.cache :: replyParts) t ∧
      s.cache.dropped (fun k => k.feed = f ∧ (k.slot, k.line) ∈ lines) t.cache ∧
      ∀ k : CacheKey, k.feed = f → (k.slot, k.line) ∈ lines → t.cache.find k = none) ∧
  (∀ (id : BitVec 8) (resp : Resp) (g : Granted) (x : Forwarded) (s : State),
    s.answers (.write (id.setWidth 9) resp) g → g.work = .bus x → x.burst.write = true →
    x.kind = .slate →
    ∃ t, exec (.slateWriteResponse id resp) s = .next t ∧ s.answeredUp x.serial resp t ∧
      s.changesOnly ([.waitingSlate, .class1 0, .class1 1, .class1 2, .class1 3] ++ replyParts) t ∧
      t.granted = (s.without (.write (id.setWidth 9) resp)).granted ∧
      (∀ (u : State) (page : Nat), u.slateWritten page = true ↔ ∃ r : Forwarded,
        (r ∈ u.class2 ∨ ∃ g ∈ u.granted, g.work = .bus r) ∧ r.kind = .slate ∧ r.burst.write = true ∧
          r.burst.addr.toNat / 4096 = page) ∧
      t.waitingSlate = s.waitingSlate.filter (fun w => t.slateWritten (w.addr.toNat / 4096)) ∧
      ∀ o : OutId, t.class1[o] = s.class1[o] ++
        ((s.waitingSlate.filter fun w => w.output = o ∧ t.slateWritten (w.addr.toNat / 4096) = false).map
          fun w => .slate w.index w.addr w.len))

/-- The response to a status record's write has no effect, but that of the device record settles DONE the
IDENTIFY commands of its grant (R163, R186). The response to a result word's write makes its cell IDLE, or,
after a DEVICE_CLEAR, settles it ABORTED and requests that word (R168, R170, R187). -/
def Obligations.RecordAndResultResponses : Prop :=
  (∀ (resp : Resp) (g : Granted) (r : RecordSel) (bytes : List Byte) (cells : List CellId) (s : State),
    s.answers (.write 260 resp) g → g.work = .record r bytes cells →
    ∃ t, exec (.statusRecordWriteResponse resp) s = .next t ∧
      s.changesOnly ([.granted, .class3] ++ cells.map .cell) t ∧
      (cells = [] → t.class3 = s.class3) ∧
      ∀ c a, c ∈ cells → s.cells[c] = some a → a.identify = .granted → a.settled = none →
        t.cells[c] = some ({ a with identify := .no }.settledAs .done 0)) ∧
  (∀ (resp : Resp) (g : Granted) (o : OutId) (pos : Nat) (bytes : List Byte) (s : State),
    s.answers (.write 260 resp) g → g.work = .trace o pos bytes →
    exec (.statusRecordWriteResponse resp) s = .next (s.without (.write 260 resp))) ∧
  (∀ (resp : Resp) (g : Granted) (c : CellId) (w : Word) (a : ActiveCommand) (s : State),
    s.answers (.write 260 resp) g → g.work = .result c w → s.cells[c] = some a →
    ∃ t, exec (.resultWordResponse resp) s = .next t ∧
      s.changesOnly [.granted, .class3, .cell c] t ∧
      (a.abortDue = false → t.cells[c] = none ∧ t.marked .device) ∧
      (a.abortDue = true → a.hostAnswered = true →
        t.cells[c] = some
          { a with settled := some (.aborted, 0), stage := .waiting, abortDue := false } ∧
        t.class3 = s.class3 ++ [.result c (BitVec.ofNat 32 (9 + 256 * a.tag.toNat))]))

/-- The completion of a table read ends the load: with an error the table stays and the result is FETCH_FAILED;
with an invalid phase the table stays and the result is COEF_INVALID with the lowest such phase; otherwise the
bank takes the table and the result is DONE (R94, R163, R206). -/
def Obligations.CoefficientLoadEndsOneOfThreeWays : Prop :=
  ∀ (beats : List ReadBeat) (g : Granted) (k : BankId) (page : Page) (c : CellId) (a : ActiveCommand)
    (s : State), s.answers (.read 260 beats) g → g.work = .table k page →
    s.banks[k].loading = some c → s.cells[c] = some a →
    ∃ t, exec (.coefficientLoadCompletion beats) s = .next t ∧
      s.changesOnly [.granted, .class3, .bank k, .cell c] t ∧ t.banks[k].loading = none ∧
      ((∃ x ∈ beats, x.resp = .slverr ∨ x.resp = .decerr) →
        t.banks[k].table = s.banks[k].table ∧ t.cells[c] = some (a.settledAs .fetchFailed 0)) ∧
      ((∀ x ∈ beats, x.resp = .okay ∨ x.resp = .exokay) →
        (∀ p : Fin 32, ((tableOf (beatData beats))[p]).valid = false →
          (∀ q : Fin 32, q < p → ((tableOf (beatData beats))[q]).valid = true) →
          t.banks[k].table = s.banks[k].table ∧
          t.cells[c] = some (a.settledAs .coefInvalid (BitVec.ofNat 8 p.val))) ∧
        ((∀ p : Fin 32, ((tableOf (beatData beats))[p]).valid = true) →
          t.banks[k].table = tableOf (beatData beats) ∧
          t.cells[c] = some (a.settledAs .done 0)))

/-- A fill's answer joins its entry's bytes; the last one makes the entry VALID, or FAULTED when any answer of
the fill was an error (R124, R163). At the last answer, and then only, each build that holds the entry, when
all it holds has settled and a fault calls for the other record's lines, looks up those it does not hold, in
tap order: B's when w is 0 and a line of A is FAULTED, A's when w is 256 and a line of B is, A and B being
distinct (R104, R105, R115). Every other output stays as it is, and without such a call nothing else changes.
That an entry can always be taken: log entry 20. -/
def Obligations.FillResponseSettlesTheEntry : Prop :=
  ∀ (o : OutId) (beats : List ReadBeat) (g : Granted) (e : EntryId) (addr : Addr) (len : Nat)
    (u : State) (missing : Build → List CacheKey) (s : State),
    s.answers (.read (BitVec.ofNat 9 (256 + o.val)) beats) g →
    g.work = .fetch o (.fill e addr len) → s.noticeHolds → s.cache.entries[e].state = .fetching →
    0 < s.cache.entries[e].uses →
    u = { s.without (.read (BitVec.ofNat 9 (256 + o.val)) beats) with
      cache := { s.cache with
        entries := s.cache.entries.set e
          { s.cache.entries[e] with
            left := s.cache.entries[e].left - 1
            bad := s.cache.entries[e].bad || anyError beats
            state :=
              if 1 < s.cache.entries[e].left then .fetching
              else if s.cache.entries[e].bad || anyError beats then .faulted else .valid
            bytes :=
              if s.cache.entries[e].left ≤ 1 ∧ (s.cache.entries[e].bad || anyError beats) = true then []
              else s.cache.entries[e].bytes ++ beatData beats } } } →
    (∀ d, missing d =
      if (∀ h ∈ d.holds, u.cache.entries[h.2].state ≠ .fetching) ∧ d.a.number ≠ d.b.number then
        (if d.weight = 0 ∧ u.faulted d d.a = true then distinct (d.taps d.b)
        else if d.weight = 256 ∧ u.faulted d d.b = true then distinct (d.taps d.a) else []).filter
          fun k => k ∉ d.holds.map (·.1)
      else []) →
    ((1 < s.cache.entries[e].left ∨ ∀ (p : OutId) (d : Build), s.outputs[p].builder.build = some d →
        e ∈ d.holds.map (·.2) → missing d = []) →
      exec (.lineFillResponse o beats) s = .next u) ∧
    (s.cache.entries[e].left ≤ 1 →
      (∀ (p : OutId) (d : Build), s.outputs[p].builder.build = some d → ∀ h ∈ d.holds,
        s.cache.entries[h.2].state ≠ .free ∧ 0 < s.cache.entries[h.2].uses) →
      16 ≤ allEntries.countP (fun i => s.cache.entries[i].state = .free ∨
        (s.cache.entries[i].state = .valid ∧ s.cache.entries[i].uses = 0 ∧ i ∈ s.cache.order)) →
      ∃ t, exec (.lineFillResponse o beats) s = .next t ∧
        s.changesOnly ([.granted, .cache, .class1 0, .class1 1, .class1 2, .class1 3] ++ outputParts) t ∧
        t.granted = u.granted ∧
        (∀ i : EntryId, s.cache.entries[i].state ≠ .free → 0 < s.cache.entries[i].uses →
          ∃ n, u.cache.entries[i].uses ≤ n ∧
            t.cache.entries[i] = { u.cache.entries[i] with uses := n }) ∧
        ∀ p : OutId,
          (s.outputs[p].builder.build = none → t.outputs[p] = s.outputs[p] ∧ t.class1[p] = s.class1[p]) ∧
          ∀ d, s.outputs[p].builder.build = some d →
            (e ∉ d.holds.map (·.2) → t.outputs[p] = s.outputs[p] ∧ t.class1[p] = s.class1[p]) ∧
            (e ∈ d.holds.map (·.2) → ∃ (more : List (CacheKey × EntryId)) (fills : List Fetch),
              more.map (·.1) = missing d ∧ t.class1[p] = s.class1[p] ++ fills ∧
              (missing d = [] → fills = []) ∧
              t.outputs[p] =
                { s.outputs[p] with
                  builder :=
                    { s.outputs[p].builder with build := some { d with holds := d.holds ++ more } } }))

/-- A slate read's answer is kept while other reads of the run wait. The last one answers the run's beats OKAY
from the bytes as stored, in place, with the fill colour where a read failed and zero in the padding; a failed
run counts one fetch error and sets FETCH_ERROR (R107, R111), at that last answer, whichever read failed (the
model's reading, log entry 38). Then the next head beat is taken: the rest of the run's burst, or the next
burst. Nothing else changes. -/
def Obligations.SlateAnswersServeTheRun : Prop :=
  ∀ (o : OutId) (beats : List ReadBeat) (g : Granted) (i : Nat) (addr : Addr) (len : Nat)
    (run done : SlateRun) (q : QueuedRead) (rest : List QueuedRead) (s : State),
    s.answers (.read (BitVec.ofNat 9 (256 + o.val)) beats) g → g.work = .fetch o (.slate i addr len) →
    s.noticeHolds → s.outputs[o].builder.run = some run → s.outputs[o].builder.queue = q :: rest →
    i < run.reads.length →
    done = { run with reads := run.reads.modify i fun p =>
      { p with answer := some (if anyError beats then none else some (beatData beats)) } } →
    ((∃ p ∈ done.reads, p.answer = none) →
      exec (.slateReadResponse o beats) s = .next (State.flush
        { s.without (.read (BitVec.ofNat 9 (256 + o.val)) beats) with
          outputs := s.outputs.set o
            { s.outputs[o] with builder := { s.outputs[o].builder with run := some done } } })) ∧
    ((∀ p ∈ done.reads, p.answer ≠ none) → 1 ≤ run.beats → q.done + run.beats ≤ q.len →
      ∃ u : State, exec (.slateReadResponse o beats) s = .next (u.takeHead o).flush ∧
        s.changesOnly [.output o, .reads, .granted, .class3, .deviceWord] u ∧ s.onlyMarks [.output o] u ∧
        u.noticeHolds ∧ u.granted = (s.without (.read (BitVec.ofNat 9 (256 + o.val)) beats)).granted ∧
        u.outputs[o] =
          { s.outputs[o] with
            builder :=
              { s.outputs[o].builder with
                run := none
                queue := if q.done + run.beats = q.len then rest
                  else { q with done := q.done + run.beats } :: rest }
            report :=
              { s.outputs[o].report with
                fetchErrors :=
                  if (∃ p ∈ done.reads, p.answer = some none) ∧ s.outputs[o].report.fetchErrors < 65535 then
                    s.outputs[o].report.fetchErrors + 1 else s.outputs[o].report.fetchErrors }
            word :=
              if ∃ p ∈ done.reads, p.answer = some none then s.outputs[o].word ||| 0x0010
              else s.outputs[o].word } ∧
        u.reads = s.reads.map fun x =>
          if x.serial = q.serial then
            { x with
              ready := decide (q.done + run.beats = q.len)
              beats := x.beats ++ (List.range run.beats).map fun j =>
                ⟨.okay, (List.range (beatBytes q.offset q.size.val (q.done + j))).map fun k =>
                  done.shownAt s.outputs[o].modes.fill (beatStart q.offset q.size.val (q.done + j) + k)⟩ }
          else x)

/-- The completion of a build: it waits until every line it needs is held and settled, and when none is due
nothing changes (log entry 5). Then its buffer is READY with the line, or EMPTY when it went stale; its
context's use count falls and its clip count grows by the tally; the entries it held are released; a faulty
build counts one fetch error, sets FETCH_ERROR and marks the output record (R80, R102, R107, R116, R125). The
build's context is the retired one, if there is one, else the one held for the build's parity (log entry 27);
a retired context whose count reaches 0 releases its pins and becomes absent (R77). The head beat, then the
prefetch of the next line, go on from there (R115, R116, R118). -/
def Obligations.BuildCompletionFillsTheBuffer : Prop :=
  (∀ (o : OutId) (s : State), s.resetting = false →
    (s.outputs[o].builder.build = none ∨
      ∃ d, s.outputs[o].builder.build = some d ∧ s.canComplete d = false) →
    exec (.lineBuildCompletion o) s = .next s) ∧
  (∀ (o : OutId) (d : Build) (used : Context → Context) (faulty : Prop) (s : State), s.resetting = false →
    s.noticeHolds → s.outputs[o].builder.build = some d → s.canComplete d = true →
    (∀ x, used x = { x with
      uses := x.uses - 1, clips := min (x.clips + (s.computeLine d).2) 65535 }) →
    (faulty ↔ ∃ h ∈ d.holds, s.cache.entries[h.2].state = .faulted) →
    ∃ u : State,
      exec (.lineBuildCompletion o) s = .next (State.flush ((u.takeHead o).prefetch o (d.line + 1))) ∧
      s.changesOnly ([.output o, .cache, .class3, .deviceWord] ++ feedParts) u ∧
      s.onlyMarks [.output o] u ∧ u.noticeHolds ∧ (faulty → u.marked (.output o)) ∧
      u.outputs[o].builder =
        { s.outputs[o].builder with
          build := none
          lastTouched :=
            if s.outputs[o].builder.buffers[d.buffer].stale then s.outputs[o].builder.lastTouched
            else some d.buffer
          buffers := s.outputs[o].builder.buffers.set d.buffer
            (if s.outputs[o].builder.buffers[d.buffer].stale then ⟨.empty, none, none, false, []⟩
             else
              { s.outputs[o].builder.buffers[d.buffer] with
                state := .ready
                bytes := (s.computeLine d).1 }) } ∧
      (s.outputs[o].ctx.retired = none →
        u.outputs[o].ctx = s.outputs[o].ctx.setHeld d.parity ((s.outputs[o].ctx.held d.parity).map used) ∧
        ∀ f : FeedId, u.feeds[f] = s.feeds[f]) ∧
      (∀ z, s.outputs[o].ctx.retired = some z → 1 < z.uses →
        u.outputs[o].ctx = { s.outputs[o].ctx with retired := some (used z) } ∧
        ∀ f : FeedId, u.feeds[f] = s.feeds[f]) ∧
      (∀ z, s.outputs[o].ctx.retired = some z → z.uses ≤ 1 →
        u.outputs[o].ctx = { s.outputs[o].ctx with retired := none } ∧
        ∀ f : FeedId, u.feeds[f] =
          { s.feeds[f] with
            history := s.feeds[f].history.map fun r =>
              { r with pins := r.pins - z.pinsOn f r.number } }) ∧
      u.cache = d.holds.foldl (fun k h => k.release h.2) s.cache ∧
      (faulty →
        u.outputs[o].word = s.outputs[o].word ||| 0x0010 ∧
        u.outputs[o].report =
          { s.outputs[o].report with
            fetchErrors :=
              if s.outputs[o].report.fetchErrors < 65535 then s.outputs[o].report.fetchErrors + 1
              else s.outputs[o].report.fetchErrors }) ∧
      (¬ faulty → u.outputs[o].word = s.outputs[o].word ∧ u.outputs[o].report = s.outputs[o].report) ∧
      u.outputs[o] =
        { s.outputs[o] with
          builder := u.outputs[o].builder, ctx := u.outputs[o].ctx
          word := u.outputs[o].word, report := u.outputs[o].report })

/-! ## Timing and latches -/

/-- A reference pulse makes its reference PRESENT with its tick. Of the outputs it selects, a STARTING one
starts and a RUNNING one whose generator it does not meet realigns: both latch at FRAME START and load the
generator with Po; a realignment sets REF_REALIGN and a start does not, a start of an interlaced output leaves
a placeholder of the second parity. Every other output stays as it is, and of the feeds only pins change (R47,
R48, R53, R54, R56, R57, R63, R79). The latches themselves: PulsesLatchContexts and
FrameStartTakesTheModeAndTheSlate. -/
def Obligations.ReferencePulseStartsAndRealigns : Prop :=
  ∀ (r : Ref) (s : State), s.resetting = false →
    ∃ t, exec (.referencePulse r) s = .next t ∧ t.ref r = ⟨true, s.tick⟩ ∧
      ((s.ref r).present = false → t.marked .device) ∧
      s.changesOnly ([.ref r, .class3, .deviceWord] ++ feedParts ++ outputParts) t ∧
      (∀ f : FeedId, t.feeds[f] = { s.feeds[f] with history := t.feeds[f].history } ∧
        t.feeds[f].history.map (fun r => { r with pins := 0 }) =
          s.feeds[f].history.map (fun r => { r with pins := 0 })) ∧
      (∀ o : OutId, (∀ c cause, ¬ s.outputs[o].takesPulse r c cause) → t.outputs[o] = s.outputs[o]) ∧
      ∀ (o : OutId) (c : OutputConfig) (cause : PulseCause), s.outputs[o].takesPulse r c cause →
        t.outputs[o].state = .running ∧ t.outputs[o].config = some c ∧
        t.outputs[o].gen = ⟨true, c.period, (firstParity c.order).other⟩ ∧
        t.outputs[o].ctx.counter = s.outputs[o].ctx.counter + 1 ∧ t.marked (.output o) ∧
        (∃ x, t.outputs[o].ctx.held (firstParity c.order) = some x ∧ x.parity = firstParity c.order ∧
          x.number = s.outputs[o].ctx.counter ∧ x.latchTick = s.tick ∧ x.clips = 0 ∧ x.uses = 0) ∧
        (cause = .realign → t.outputs[o].word &&& 0x0100 = 0x0100) ∧
        (cause = .start → t.outputs[o].word &&& 0x0100 = s.outputs[o].word &&& 0x0100) ∧
        (cause = .start → c.order ≠ none →
          ∃ y, t.outputs[o].ctx.held (firstParity c.order).other = some y ∧ y.kind = .empty ∧
            y.number = s.outputs[o].ctx.counter ∧ y.a = none ∧ y.b = none)

/-- A pulse, be it an underflow, a start or a realignment, latches a context: it takes its parity's place with
the next context id and output sample number and the tick; its kind and records follow the frame decision,
CONVERT by the selection at the tick less D, FREEZE by the frozen context and FILL without one; report,
conditions, underrun counter, trace entry and mark follow (R52 to R57, R63 to R66, R72, R74, R80 to R83, R198;
a trace entry takes the place of one that waits for its position: log entry 17). A second field takes the
frame's decision. Of the feeds only pins change: the new context and a frozen context made here place theirs,
a frozen context released here and the replaced context take theirs back, the latter unless a build uses it
and it becomes the retired one (R75, R76, R135, R136). The buffers of the replaced context are invalidated
(R76, R114). A reference pulse takes its outputs in index order (the model's choice, log entry 25). An
underflow that is not due has no effect (log entry 5). -/
def Obligations.PulsesLatchContexts : Prop :=
  (∀ (o : OutId) (s : State), s.resetting = false →
    (s.outputs[o].gen.counting = false ∨ s.outputs[o].gen.left ≠ 0) →
    exec (.underflow o) s = .next s) ∧
  (∀ (o : OutId) (c : OutputConfig) (s : State), s.resetting = false →
    s.outputs[o].config = some c → s.outputs[o].gen.counting = true → s.outputs[o].gen.left = 0 →
    ∃ (t : State) (x : Context), exec (.underflow o) s = .next t ∧
      s.Latched o c s.outputs[o].gen.next .underflow x t) ∧
  (∀ (r : Ref) (s : State), s.resetting = false →
    ∃ u : Nat → State, exec (.referencePulse r) s = .next (u 4) ∧
      s.changesOnly [.ref r, .class3] (u 0) ∧ s.onlyMarks [] (u 0) ∧ (u 0).ref r = ⟨true, s.tick⟩ ∧
      ∀ o : OutId,
        ((∀ c cause, ¬ s.outputs[o].takesPulse r c cause) → u (o.val + 1) = u o.val) ∧
        ∀ (c : OutputConfig) (cause : PulseCause), s.outputs[o].takesPulse r c cause →
          ∃ x : Context, (u o.val).Latched o c (firstParity c.order) cause x (u (o.val + 1)))

/-- A FRAME START latch, at an underflow, a start or a realignment, first takes the pending mode, with
MODE_CHANGED when it differs; on entry into FREEZE it makes the frozen context, a copy of the held CONVERT
context with the greatest output sample number (across the wrap of the counter: log entry 35), or none without
one, and releases it on leaving; it counts the hold in FREEZE while the feed is LOST, up to the limit, where
it expires once, or without end for a limit of 0; then it evaluates the slate injection and records the frame
decision (R63, R134, R135, R136, R137, R138, R144). -/
def Obligations.FrameStartTakesTheModeAndTheSlate : Prop :=
  (∀ (o : OutId) (c : OutputConfig) (s : State), s.resetting = false → s.outputs[o].config = some c →
    s.outputs[o].gen.counting = true → s.outputs[o].gen.left = 0 →
    s.outputs[o].gen.next = firstParity c.order →
    ∃ t, exec (.underflow o) s = .next t ∧ s.frameStarted o c t) ∧
  (∀ (r : Ref) (s : State), s.resetting = false →
    ∃ t, exec (.referencePulse r) s = .next t ∧
      ∀ (o : OutId) (c : OutputConfig) (cause : PulseCause), s.outputs[o].takesPulse r c cause →
        s.frameStarted o c t)

/-- A PRESENT reference is lost at its absence interval, with its condition (R47, R49); a loss timer at zero
takes its feed to LOST: the FILLING records become PARTIAL, the phase is AWAITING, a seed is pending,
FEED_LOST is set, and the bound live outputs receive the event (R22, R39, R40, R132). A tick with nothing due
advances the counter and counts down every running loss timer and COUNTING generator (R39, R46, R52); every
tick advances the counter (an event still due happens first: the model's order, log entry 4). An event not due
has no effect (log entry 5). -/
def Obligations.TimersAndTheTick : Prop :=
  (∀ (r : Ref) (s : State), s.resetting = false →
    ((s.ref r).present = false ∨
      (s.tick - (s.ref r).lastPulse).toInt < (match r with | .refA => 2160000 | .refB => 1801800)) →
    exec (.referenceAbsent r) s = .next s) ∧
  (∀ (r : Ref) (s : State), s.resetting = false → (s.ref r).present = true →
    (match r with | .refA => 2160000 | .refB => 1801800) ≤ (s.tick - (s.ref r).lastPulse).toInt →
    ∃ t, exec (.referenceAbsent r) s = .next t ∧ s.changesOnly [.ref r, .deviceWord, .class3] t ∧
      s.onlyMarks [] t ∧
      t.ref r = ⟨false, (s.ref r).lastPulse⟩ ∧ t.marked .device ∧ t.noticeHolds ∧
      t.deviceWord &&& deviceConds =
        (s.deviceWord ||| (match r with | .refA => 0x0001 | .refB => 0x0002)) &&& deviceConds) ∧
  (∀ (f : FeedId) (s : State), s.resetting = false → s.feeds[f].cadence.lossTimer ≠ some 0 →
    exec (.lossTimerExpiry f) s = .next s) ∧
  (∀ (f : FeedId) (s : State), s.resetting = false → s.feeds[f].cadence.lossTimer = some 0 →
    ∃ t, exec (.lossTimerExpiry f) s = .next t ∧
      s.changesOnly ([.feed f, .deviceWord, .class3] ++ outputParts) t ∧
      s.onlyMarks (.feed f :: outputParts) t ∧
      (s.feeds[f].cadence.state ≠ .lost → t.marked (.feed f)) ∧
      t.feeds[f] =
        { s.feeds[f].ended with
          phase := .awaiting, current := none
          cadence :=
            { s.feeds[f].cadence with
              state := .lost, lossTimer := none, seedPending := true, regularRun := 0, irregularRun := 0 }
          word := s.feeds[f].ended.word ||| 0x0004 } ∧
      ∀ o : OutId, t.outputs[o] = s.outputs[o].heard f [.lost]) ∧
  (∀ s : State, s.resetting = false → ∃ t, exec .tick s = .next t ∧ t.tick = s.tick + 1) ∧
  (∀ s : State, s.resetting = false →
    (∀ r : Ref, (s.ref r).present = true →
      (s.tick - (s.ref r).lastPulse).toInt < (match r with | .refA => 2160000 | .refB => 1801800)) →
    (∀ f : FeedId, s.feeds[f].cadence.lossTimer ≠ some 0) →
    (∀ o : OutId, s.outputs[o].gen.counting = true → s.outputs[o].gen.left ≠ 0) →
    exec .tick s = .next
      { s with
        tick := s.tick + 1
        feeds := s.feeds.map fun x =>
          { x with cadence := { x.cadence with lossTimer := x.cadence.lossTimer.map (· - 1) } }
        outputs := s.outputs.map fun x =>
          if x.gen.counting then { x with gen := { x.gen with left := x.gen.left - 1 } } else x })

/-! ## The functions that the blocks compute -/

/-- A response at the Bus Port goes up whole and in its ID's order: of each ID the answered reads, up to the
first that is not ready, are sent in order of acceptance and the others stay; so are the writes (R158, R159).
-/
def Obligations.ResponsesGoUpInOrder : Prop :=
  ∀ (s : State) (id : BitVec 8), s.changesOnly [.reads, .writes, .busOut] s.flush ∧
    (∃ gone : List ReadTxn,
      s.reads.filter (fun x => x.id = id) = gone ++ s.flush.reads.filter (fun x => x.id = id) ∧
      (∀ x ∈ gone, x.ready = true) ∧
      (∀ x, (s.flush.reads.filter fun x => x.id = id).head? = some x → x.ready = false) ∧
      (s.sent s.flush).filterMap (fun m => match m with
        | .read i beats => if i = id then some beats else none
        | .write _ _ => none) = gone.map (·.beats)) ∧
    (∃ gone : List WriteTxn,
      s.writes.filter (fun x => x.id = id) = gone ++ s.flush.writes.filter (fun x => x.id = id) ∧
      (∀ x ∈ gone, x.resp ≠ none) ∧
      (∀ x, (s.flush.writes.filter fun x => x.id = id).head? = some x → x.resp = none) ∧
      (s.sent s.flush).filterMap (fun m => match m with
        | .write i resp => if i = id then some resp else none
        | .read _ _ => none) = gone.filterMap (·.resp))

/-- The slot chosen for a frame qualifies, and it is the lowest empty qualifying slot; without one, no
qualifying slot's newest record is older than its own, for histories whose sample numbers lie within half the
number space (R10, R13). -/
def Obligations.SlotChoiceTakesTheOldest : Prop :=
  ∀ (n : Nat) (x : Feed),
    (x.chooseSlot n = none ↔ ∀ u : SlotId, x.qualifies n u = false) ∧
    ∀ (slot : SlotId) (base : SampleNo), x.chooseSlot n = some slot →
      (∀ r ∈ x.history, (r.number - base).toNat < 2 ^ 31) →
      x.qualifies n slot = true ∧
      (slotRecords slot x.history = [] → ∀ u : SlotId, u < slot → x.qualifies n u = true →
        slotRecords u x.history ≠ []) ∧
      (slotRecords slot x.history ≠ [] → ∀ u : SlotId, x.qualifies n u = true →
        slotRecords u x.history ≠ [] ∧
        ∀ a b : SampleNo, newestIn slot x.history = some a → newestIn u x.history = some b →
          (a - base).toNat ≤ (b - base).toNat)

/-- A sample start loads the loss timer, keeps its own tick and its record's stamp, and keeps the stamp it
makes when that lies after the newest record's, and else takes that stamp plus 256 (R29, R35, R39). By the
seed rule E is nominal and the run counts 0 (R30, R41); a regular interval moves the stamp an eighth and E a
sixty-fourth of the error, E clamped, and locks at the lock count; an irregular one restarts the stamp, keeps
E, counts, and unlocks at the third in a row (R31, R32, R33, R34, R37, R38, R43). -/
def Obligations.SampleStartFollowsTheCadence : Prop :=
  ∀ (c : FeedConfig) (now : Tick) (newest : Option Stamp) (k : Cadence) (r : SampleStart),
    r = sampleStart c now newest k →
    r.cadence.lossTimer = some (c.lossPeriods * c.period) ∧ r.cadence.lastRaw = now ∧
    r.cadence.lastSmoothed = r.stamp ∧ (∀ n, newest = some n → 0 < Stamp.since r.stamp n) ∧
    ((k.state = .lost ∨ k.seedPending = true) →
      r.cadence.period = c.period * 256 ∧ r.cadence.regularRun = 0 ∧ r.cadence.irregularRun = 0 ∧
      r.cadence.seedPending = false ∧ r.stamp = afterNewest newest (BitVec.ofNat 48 (now.toNat * 256)) ∧
      r.conds = 0 ∧
      (k.state = .lost → r.cadence.state = .seeking ∧ r.events = [.seeking true]) ∧
      (k.state ≠ .lost → r.cadence.state = k.state ∧ r.events = [])) ∧
    (k.state ≠ .lost → k.seedPending = false →
      ((now - k.lastRaw).toInt - c.period).natAbs ≤ c.period / 2 ^ c.tolShift →
      ∀ e : Int, e = Stamp.since (BitVec.ofNat 48 (now.toNat * 256))
          (k.lastSmoothed + BitVec.ofNat 48 k.period) →
        r.stamp = afterNewest newest
          (k.lastSmoothed + BitVec.ofNat 48 k.period + BitVec.ofInt 48 (e / 8)) ∧
        (r.cadence.period : Int) = max (c.period * 256 - c.period : Int)
          (min (k.period + e / 64) (c.period * 256 + c.period)) ∧
        r.cadence.regularRun = (if k.regularRun < 15 then k.regularRun + 1 else k.regularRun) ∧
        r.cadence.irregularRun = 0 ∧ r.cadence.irregularLeft = k.irregularLeft ∧
        (k.state = .seeking → r.cadence.regularRun = c.lockCount →
          r.cadence.state = .locked ∧ r.conds = 0x0001 ∧ r.events = [.locked]) ∧
        (¬ (k.state = .seeking ∧ r.cadence.regularRun = c.lockCount) →
          r.cadence.state = k.state ∧ r.conds = 0 ∧ r.events = [])) ∧
    (k.state ≠ .lost → k.seedPending = false →
      c.period / 2 ^ c.tolShift < ((now - k.lastRaw).toInt - c.period).natAbs →
      r.stamp = afterNewest newest (BitVec.ofNat 48 (now.toNat * 256)) ∧ r.cadence.period = k.period ∧
      r.cadence.regularRun = 0 ∧
      r.cadence.irregularRun = (if k.irregularRun < 15 then k.irregularRun + 1 else k.irregularRun) ∧
      r.cadence.irregularLeft = k.irregularLeft - 1 ∧
      r.cadence.irregularCount =
        (if k.irregularCount < 65535 then k.irregularCount + 1 else k.irregularCount) ∧
      (k.state = .locked → k.irregularRun = 2 →
        r.cadence.state = .seeking ∧ r.events = [.seeking false] ∧
        r.conds = 0x0002 ||| (if k.irregularLeft = 1 then 0x0008 else 0)) ∧
      (¬ (k.state = .locked ∧ k.irregularRun = 2) → r.cadence.state = k.state ∧ r.events = [] ∧
        r.conds = (if k.irregularLeft = 1 then 0x0008 else 0)))

/-- A CONVERT latch takes the last COMPLETE record at or before the target and the first one after it. With
both the weight is 256 times the distance over the span, rounded, kept between 0 and 256, and rounded to a
nearest record for a gap or in NEAREST mode; with one of them alone that one is shown, as an underrun or an
excess; with none the context is EMPTY (R66 to R73). -/
def Obligations.SelectionWeighsTheNeighbours : Prop :=
  ∀ (f : FeedId) (ps : Nat) (mode : Temporal) (at_ : Stamp) (h : List SampleRecord),
    (∀ (a b : SampleRecord) (h1 h2 g1 g2 : List SampleRecord) (span : Int) (w : Nat),
      h = h1 ++ a :: h2 → a.status = .complete → Stamp.atOrBefore a.stamp at_ = true →
      (∀ r ∈ h2, r.status = .complete → Stamp.atOrBefore r.stamp at_ = false) →
      h = g1 ++ b :: g2 → b.status = .complete → Stamp.atOrBefore b.stamp at_ = false →
      (∀ r ∈ g1, r.status = .complete → Stamp.atOrBefore r.stamp at_ = true) →
      span = Stamp.since b.stamp a.stamp →
      (w : Int) = max 0 (min ((Stamp.since at_ a.stamp * 256 + span / 2) / span) 256) →
      select f ps mode at_ h =
        { kind := .convert
          a := some ⟨f, a.number, a.slot, a.parity, a.stamp⟩
          b := some ⟨f, b.number, b.slot, b.parity, b.stamp⟩
          weight := if 2 * (ps : Int) * 256 < span ∨ mode = .nearest then (if w < 128 then 0 else 256)
            else w
          flags := ⟨false, false, decide (2 * (ps : Int) * 256 < span),
            decide (2 * (ps : Int) * 256 < span ∨ mode = .nearest)⟩
          conds := if 2 * (ps : Int) * 256 < span then 0x0004 else 0 }) ∧
    (∀ (a : SampleRecord) (h1 h2 : List SampleRecord), h = h1 ++ a :: h2 → a.status = .complete →
      (∀ r ∈ h2, r.status ≠ .complete) →
      (∀ r ∈ h, r.status = .complete → Stamp.atOrBefore r.stamp at_ = true) →
      select f ps mode at_ h =
        { kind := .convert
          a := some ⟨f, a.number, a.slot, a.parity, a.stamp⟩
          b := some ⟨f, a.number, a.slot, a.parity, a.stamp⟩
          weight := 0, flags := ⟨true, false, false, false⟩, conds := 0x0001 }) ∧
    (∀ (b : SampleRecord) (g1 g2 : List SampleRecord), h = g1 ++ b :: g2 → b.status = .complete →
      (∀ r ∈ g1, r.status ≠ .complete) →
      (∀ r ∈ h, r.status = .complete → Stamp.atOrBefore r.stamp at_ = false) →
      select f ps mode at_ h =
        { kind := .convert
          a := some ⟨f, b.number, b.slot, b.parity, b.stamp⟩
          b := some ⟨f, b.number, b.slot, b.parity, b.stamp⟩
          weight := 0, flags := ⟨false, true, false, false⟩, conds := 0x0002 }) ∧
    ((∀ r ∈ h, r.status ≠ .complete) → select f ps mode at_ h =
      { kind := .empty, a := none, b := none, weight := 0
        flags := ⟨false, false, false, false⟩, conds := 0 })

/-- The line of a build that shows both records: 4W bytes, and in container x, low byte first, the temporal
sum of the two vertical sums at x plus 32,768, divided by 65,536 toward minus infinity, and clamped to the
clip range of its component; the tally counts the samples that the clamp changed (R96 to R99, R101, R102,
R103). A record's vertical sum at x is the sum of the four coefficients of its phase times the low ten bits of
container x of its four tap lines (R96, R97). -/
def Obligations.BuiltLineHoldsTheClippedSums : Prop :=
  (∀ (d : Build) (la lb : List (List Byte)),
    d.showsSums (fun x => (256 - d.weight : Int) * d.sumAt d.a la x + d.weight * d.sumAt d.b lb x)
      (d.compute .blend la lb)) ∧
  (∀ (d : Build) (r : FixedRecord) (p : Fin 32) (l0 l1 l2 l3 : List Byte) (x : Nat),
    p.val = phaseOf d.sourceLines d.outLines d.line r.parity →
    d.sumAt r [l0, l1, l2, l3] x =
      d.table[p].c0 * (((l0.getD (2 * x) 0).toNat + 256 * (l0.getD (2 * x + 1) 0).toNat) % 1024 : Nat) +
      d.table[p].c1 * (((l1.getD (2 * x) 0).toNat + 256 * (l1.getD (2 * x + 1) 0).toNat) % 1024 : Nat) +
      d.table[p].c2 * (((l2.getD (2 * x) 0).toNat + 256 * (l2.getD (2 * x + 1) 0).toNat) % 1024 : Nat) +
      d.table[p].c3 * (((l3.getD (2 * x) 0).toNat + 256 * (l3.getD (2 * x + 1) 0).toNat) % 1024 : Nat))

/-- A build requests A's four tap lines when w is below 256 and B's when it is above 0, each distinct key
once, in that order; a fault asks for B's when w is 0 and A's when w is 256, if the records are distinct (R87,
R91, R92, R104, R105, R115). It can complete when no entry it holds is FETCHING and it holds every line that
its weight or a fault calls for (R115). The line of a completing build: with no tap line FAULTED, the sums of
R98; with A faulted and B not, 256 times B's vertical sum; with B faulted and A not, 256 times A's (R104,
R105); with both faulted, or one record that is both A and B, the fill colour with a tally of 0 (R106). -/
def Obligations.FaultedLinesAreConcealed : Prop :=
  (∀ (d : Build) (key : FixedRecord → Nat → CacheKey),
    (∀ r i, key r i = ⟨r.feed, r.slot, r.generation,
      match r.parity with
      | .whole => tapLine d.sourceLines d.outLines d.line r.parity i
      | .top => 2 * tapLine d.sourceLines d.outLines d.line r.parity i
      | .bottom => 2 * tapLine d.sourceLines d.outLines d.line r.parity i + 1⟩) →
    (∀ r, d.taps r = (List.range 4).map (key r)) ∧
    d.firstKeys.Nodup ∧ d.firstKeys.length ≤ 8 ∧
    d.firstKeys.Sublist ((List.range 4).map (key d.a) ++ (List.range 4).map (key d.b)) ∧
    (∀ k, k ∈ d.firstKeys ↔ (d.weight < 256 ∧ ∃ i < 4, k = key d.a i) ∨
      (0 < d.weight ∧ ∃ i < 4, k = key d.b i)) ∧
    ∀ fa fb : Bool, (d.concealKeys fa fb).Nodup ∧
      ∀ k, k ∈ d.concealKeys fa fb ↔ d.a.number ≠ d.b.number ∧
        ((d.weight = 0 ∧ fa = true ∧ ∃ i < 4, k = key d.b i) ∨
          (d.weight = 256 ∧ fb = true ∧ ∃ i < 4, k = key d.a i))) ∧
  (∀ (d : Build) (s : State) (faulted : FixedRecord → Prop) (sum : FixedRecord → Nat → Int),
    (∀ r, faulted r ↔ ∃ i e, i < 4 ∧ d.entryOf (d.tapKey r i) = some e ∧
      s.cache.entries[e].state = .faulted) →
    (∀ r x, sum r x = d.sumAt r (s.tapBytes d r) x) →
    (s.canComplete d = true ↔ (∀ h ∈ d.holds, s.cache.entries[h.2].state ≠ .fetching) ∧
      (∀ k ∈ d.firstKeys, ∃ h ∈ d.holds, h.1 = k) ∧
      ∀ fa fb : Bool, (fa = true ↔ faulted d.a) → (fb = true ↔ faulted d.b) →
        ∀ k ∈ d.concealKeys fa fb, ∃ h ∈ d.holds, h.1 = k) ∧
    (¬ faulted d.a → ¬ faulted d.b → d.weight ≤ 256 → d.showsSums
      (fun x => (256 - d.weight : Int) * sum d.a x + d.weight * sum d.b x) (s.computeLine d)) ∧
    (d.a.number ≠ d.b.number → faulted d.a → ¬ faulted d.b →
      d.showsSums (fun x => 256 * sum d.b x) (s.computeLine d)) ∧
    (d.a.number ≠ d.b.number → faulted d.b → ¬ faulted d.a →
      d.showsSums (fun x => 256 * sum d.a x) (s.computeLine d)) ∧
    ((faulted d.a ∧ faulted d.b) ∨ (d.a.number = d.b.number ∧ (faulted d.a ∨ faulted d.b)) →
      s.computeLine d = ((List.range (4 * d.width)).map (colourByte d.fill), 0)))

/-- The arithmetic of a sample fits signed 32-bit integers: with coefficients from −512 to 511, values from 0
to 1023 and a weight from 0 to 256, each vertical sum is at most 2,095,104 in magnitude, the temporal sum at
most 536,346,624, with 32,768 added at most 536,379,392, and the output value lies from −8,184 to 8,184
(R100). For a feed and an output that fit, the base line of every output line lies from −1 to Hf − 1 and its
phase from 0 to 31, together they are the position in thirty-seconds of a line, and each of the four tap lines
is a line of the record (R88, R89, R90, R91). -/
def Obligations.SumsAndPositionsStayInRange : Prop :=
  (∀ (c : Coefs) (v0 v1 v2 v3 : Nat), (∀ x ∈ [c.c0, c.c1, c.c2, c.c3], -512 ≤ x ∧ x ≤ 511) →
    (∀ v ∈ [v0, v1, v2, v3], v ≤ 1023) → (verticalSum c v0 v1 v2 v3).natAbs ≤ 2095104) ∧
  (∀ (w : Nat) (va vb : Int), w ≤ 256 → va.natAbs ≤ 2095104 → vb.natAbs ≤ 2095104 →
    (temporalSum w va vb).natAbs ≤ 536346624 ∧ (temporalSum w va vb + 32768).natAbs ≤ 536379392 ∧
    536379392 < 2 ^ 31 ∧ -8184 ≤ roundSum (temporalSum w va vb) ∧
    roundSum (temporalSum w va vb) ≤ 8184) ∧
  (∀ (hs ho y : Nat) (p : Parity), 128 ≤ hs → 128 ≤ ho → hs ≤ 2 * ho → ho ≤ 2 * hs → y < ho →
    (p ≠ .whole → hs % 2 = 0) →
    -1 ≤ baseLine hs ho y p ∧ baseLine hs ho y p ≤ (recordLines hs p : Int) - 1 ∧
    phaseOf hs ho y p < 32 ∧ pos32 hs ho y p = 32 * baseLine hs ho y p + phaseOf hs ho y p ∧
    ∀ i, i < 4 → tapLine hs ho y p i < recordLines hs p ∧
      (0 ≤ baseLine hs ho y p - 1 + i → baseLine hs ho y p - 1 + i < recordLines hs p →
        (tapLine hs ho y p i : Int) = baseLine hs ho y p - 1 + i))

/-- A table event in AUTO makes its target the pending mode, and NO_CHANGE or MANUAL leaves it; LOCKED starts
a ONE_SHOT slate that is ARMED; SEEKING after LOST zeroes the hold count; nothing else of the mode state
changes (R131, R132, R138, R139, R145). -/
def Obligations.TableEventsSetThePendingMode : Prop :=
  ∀ (e : FeedEvent) (m : Modes),
    Modes.feedEvent e m =
      { m with
        pending :=
          if m.manual then m.pending
          else (match e with
            | .locked => m.table.locked
            | .seeking _ => m.table.seeking
            | .lost => m.table.lost).or m.pending
        holdCount := if e = .seeking true then 0 else m.holdCount
        expired := if e = .seeking true then false else m.expired
        counting := m.counting || decide (e = .locked ∧ m.injection = .oneShot)
        injectLeft :=
          if e = .locked ∧ m.injection = .oneShot ∧ m.counting = false then m.injectN
          else m.injectLeft }

/-- A lookup that hits raises the entry's use count; one that misses takes the lowest FREE entry, else the
least recently used VALID entry with use count 0, and fills it: the fill's bursts join class 1 of the output,
cover the 4W bytes of the line once in address order, and cross no multiple of 256. The entry becomes the most
recent (R121, R122, R123, R124). A release lowers an entry's use count; at 0 a FAULTED entry and a VALID one
with its drop mark set become FREE and leave the last-use order, and any other VALID one stays as it stands
there (R125). -/
def Obligations.LookupsAndReleases : Prop :=
  ∀ (o : OutId) (d : Build) (k : CacheKey) (i : EntryId) (s : State),
    (s.cache.find k = some i → s.lookup o d k =
      ({ s with cache :=
          { entries := s.cache.entries.set i
              { s.cache.entries[i] with uses := s.cache.entries[i].uses + 1 }
            order := s.cache.order.filter (· ≠ i) ++ [i] } }, [(k, i)])) ∧
    (s.cache.find k = none →
      ((s.cache.entries[i].state = .free ∧ ∀ j : EntryId, j < i → s.cache.entries[j].state ≠ .free) ∨
        ((∀ j : EntryId, s.cache.entries[j].state ≠ .free) ∧ ∃ before after,
          s.cache.order = before ++ i :: after ∧ s.cache.entries[i].state = .valid ∧
          s.cache.entries[i].uses = 0 ∧
          ∀ j ∈ before, s.cache.entries[j].state ≠ .valid ∨ s.cache.entries[j].uses ≠ 0)) →
      ∃ ps : List (Nat × Nat),
        s.lookup o d k =
          ({ s with
            cache :=
              { entries := s.cache.entries.set i
                  ⟨some k, .fetching, 1, false, [], some o, ps.length, false⟩
                order := s.cache.order.filter (· ≠ i) ++ [i] }
            class1 := s.class1.set o
              (s.class1[o] ++ ps.map fun p => .fill i (BitVec.ofNat 40 p.1) p.2) }, [(k, i)]) ∧
        (ps.flatMap fun p => List.range' p.1 p.2) = List.range'
          (d.slotPage.toNat * 4096 + k.slot.val * d.slotSize + k.line * d.sourceStride) (4 * d.width) ∧
        ∀ p ∈ ps, 0 < p.2 ∧ p.1 / 256 = (p.1 + p.2 - 1) / 256) ∧
    (s.cache.entries[i].uses ≤ 1 → (s.cache.entries[i].state = .faulted ∨
        (s.cache.entries[i].state = .valid ∧ s.cache.entries[i].drop = true)) →
      s.cache.release i =
        { entries := s.cache.entries.set i ⟨none, .free, 0, false, [], none, 0, false⟩
          order := s.cache.order.filter (· ≠ i) }) ∧
    ((1 < s.cache.entries[i].uses ∨ s.cache.entries[i].state = .free ∨
        s.cache.entries[i].state = .fetching ∨
        (s.cache.entries[i].state = .valid ∧ s.cache.entries[i].drop = false)) →
      s.cache.release i =
        { entries := s.cache.entries.set i
            { s.cache.entries[i] with uses := s.cache.entries[i].uses - 1 }
          order := s.cache.order })

/-! ## What every step keeps -/

/-- The device word's summary positions and the notice line follow the words and the masks at every step
(R188, R191, R192). -/
def Obligations.EveryStepKeepsTheNoticeLine : Prop :=
  ∀ s t : State, s.noticeHolds → step s = .next t → t.noticeHolds

/-- A step that changes what a status record shows, but for its update count and the tick of the device record,
leaves the record marked, be it for the first time or again (R195 to R198): no change stays unwritten. -/
def Obligations.EveryStepMarksWhatItChanges : Prop :=
  ∀ (s t : State) (r : RecordSel) (i : Nat), s.noticeHolds → step s = .next t → t.resetting = false →
    i < 62 → (r = .device → i < 8 ∨ 12 ≤ i) →
    (t.recordContent r).getD i 0 ≠ (s.recordContent r).getD i 0 → t.marked r

/-- Every step keeps the feeds' rules, among them one record for each slot and parity (R4, R6, R18, R33, R39,
R40, R43), and the increase of the smoothed stamps along each history (R35). Premise for the latter: the
stamps kept, the tick and the stamp that the next one is made from lie within a quarter of the range of
stamps, since R35's order is that of differences modulo 2^48. -/
def Obligations.EveryStepKeepsTheFeeds : Prop :=
  (∀ s t : State, s.feedsHold → step s = .next t → t.feedsHold) ∧
  (∀ s t : State, s.feedsHold → s.stampsRise → s.stampsNear → step s = .next t → t.stampsRise)

/-- Every step keeps the outputs' rules: generator and configuration in line with the state (R51, R52), a
RUNNING output with exactly one context for each parity of its scan and any other with none (R55, R62),
contexts with a weight of at most 256 and with both records in CONVERT and FREEZE and none otherwise (R61),
and a frozen context that is a copy of a CONVERT context (R135). -/
def Obligations.EveryStepKeepsTheOutputs : Prop :=
  ∀ s t : State, s.outputsHold → step s = .next t → t.outputsHold

/-- Every step keeps the pin count of every record equal to the number of contexts that name it, held, frozen
and retired; the retired context and the use counts in line with the build in progress; and a frozen context
in FREEZE alone (R75, R76, R77, R84, R135, R136). Records go by their sample numbers (the model's choice, log
entry 37). Premise: no context has been kept for the 2^32 samples after which a number is given again. A
context of one feed names each distinct record once. -/
def Obligations.EveryStepKeepsThePins : Prop :=
  (∀ s t : State, s.outputsHold → s.pinsHold → s.numbersFresh → step s = .next t → t.pinsHold) ∧
  (∀ (x : Context) (f : FeedId) (n : SampleNo), (∀ a b, x.a = some a → x.b = some b → a.feed = b.feed) →
    ((∃ r, (x.a = some r ∨ x.b = some r) ∧ r.feed = f ∧ r.number = n) → x.pinsOn f n = 1) ∧
    ((∀ r, x.a = some r ∨ x.b = some r → r.feed = f → r.number ≠ n) → x.pinsOn f n = 0))

/-- Every step keeps the limits of the accepted, queued and outstanding bursts (R108, R157, R161), one waiting
request for each record and each trace position (R83, R162), the numbers of the accepted bursts (the model's
own: log entry 36), valid coefficient tables (R93, R94), and the address map within the address space and free
of overlaps but shared slate regions (R147, R164, R171). -/
def Obligations.EveryStepKeepsTheLimits : Prop :=
  (∀ s t : State, s.withinLimits → step s = .next t → t.withinLimits) ∧
  (∀ s t : State, s.requestsOnce → step s = .next t → t.requestsOnce) ∧
  (∀ s t : State, s.tablesValid → step s = .next t → t.tablesValid) ∧
  (∀ s t : State, s.serialsHold → step s = .next t → t.serialsHold) ∧
  (∀ s t : State, s.mapHolds → step s = .next t → t.mapHolds)

/-- The state right after reset, with the model's choice of straps (log entry 2), meets everything that every
step keeps. -/
def Obligations.ResetMeetsWhatStepsKeep : Prop :=
  State.reset.noticeHolds ∧ State.reset.feedsHold ∧ State.reset.stampsRise ∧ State.reset.stampsNear ∧
    State.reset.outputsHold ∧
    State.reset.withinLimits ∧ State.reset.requestsOnce ∧ State.reset.serialsHold ∧
    State.reset.tablesValid ∧ State.reset.mapHolds ∧
    State.reset.pinsHold ∧ State.reset.numbersFresh
end

