-- ==== Sys2Proof/Laws/State.lean ====
section
/-! SUPPORT. What each named update of the state leaves as it was, field by field, and what it writes. -/

namespace Sys2Proof.Machine

/-- A fold keeps what each of its steps keeps. -/
theorem foldl_keeps {α β γ : Type} (f : β → γ) (g : β → α → β) (h : ∀ b a, f (g b a) = f b) :
    ∀ (l : List α) (b : β), f (l.foldl g b) = f b
  | [], _ => rfl
  | a :: l, b => (foldl_keeps f g h l (g b a)).trans (h b a)

/-! ### mark -/

@[simp] theorem State.mark_resetting (r : RecordSel) (s : State) :
    (s.mark r).resetting = s.resetting := by unfold State.mark; split <;> rfl
@[simp] theorem State.mark_powerEdge (r : RecordSel) (s : State) :
    (s.mark r).powerEdge = s.powerEdge := by unfold State.mark; split <;> rfl
@[simp] theorem State.mark_resetCause (r : RecordSel) (s : State) :
    (s.mark r).resetCause = s.resetCause := by unfold State.mark; split <;> rfl
@[simp] theorem State.mark_strap (r : RecordSel) (s : State) :
    (s.mark r).strap = s.strap := by unfold State.mark; split <;> rfl
@[simp] theorem State.mark_tick (r : RecordSel) (s : State) :
    (s.mark r).tick = s.tick := by unfold State.mark; split <;> rfl
@[simp] theorem State.mark_refA (r : RecordSel) (s : State) :
    (s.mark r).refA = s.refA := by unfold State.mark; split <;> rfl
@[simp] theorem State.mark_refB (r : RecordSel) (s : State) :
    (s.mark r).refB = s.refB := by unfold State.mark; split <;> rfl
@[simp] theorem State.mark_feeds (r : RecordSel) (s : State) :
    (s.mark r).feeds = s.feeds := by unfold State.mark; split <;> rfl
@[simp] theorem State.mark_outputs (r : RecordSel) (s : State) :
    (s.mark r).outputs = s.outputs := by unfold State.mark; split <;> rfl
@[simp] theorem State.mark_cache (r : RecordSel) (s : State) :
    (s.mark r).cache = s.cache := by unfold State.mark; split <;> rfl
@[simp] theorem State.mark_banks (r : RecordSel) (s : State) :
    (s.mark r).banks = s.banks := by unfold State.mark; split <;> rfl
@[simp] theorem State.mark_cells (r : RecordSel) (s : State) :
    (s.mark r).cells = s.cells := by unfold State.mark; split <;> rfl
@[simp] theorem State.mark_deviceWord (r : RecordSel) (s : State) :
    (s.mark r).deviceWord = s.deviceWord := by unfold State.mark; split <;> rfl
@[simp] theorem State.mark_deviceMask (r : RecordSel) (s : State) :
    (s.mark r).deviceMask = s.deviceMask := by unfold State.mark; split <;> rfl
@[simp] theorem State.mark_deviceUpdates (r : RecordSel) (s : State) :
    (s.mark r).deviceUpdates = s.deviceUpdates := by unfold State.mark; split <;> rfl
@[simp] theorem State.mark_notice (r : RecordSel) (s : State) :
    (s.mark r).notice = s.notice := by unfold State.mark; split <;> rfl
@[simp] theorem State.mark_class1 (r : RecordSel) (s : State) :
    (s.mark r).class1 = s.class1 := by unfold State.mark; split <;> rfl
@[simp] theorem State.mark_class2 (r : RecordSel) (s : State) :
    (s.mark r).class2 = s.class2 := by unfold State.mark; split <;> rfl
@[simp] theorem State.mark_pointer (r : RecordSel) (s : State) :
    (s.mark r).pointer = s.pointer := by unfold State.mark; split <;> rfl
@[simp] theorem State.mark_granted (r : RecordSel) (s : State) :
    (s.mark r).granted = s.granted := by unfold State.mark; split <;> rfl
@[simp] theorem State.mark_waitingSlate (r : RecordSel) (s : State) :
    (s.mark r).waitingSlate = s.waitingSlate := by unfold State.mark; split <;> rfl
@[simp] theorem State.mark_reads (r : RecordSel) (s : State) :
    (s.mark r).reads = s.reads := by unfold State.mark; split <;> rfl
@[simp] theorem State.mark_writes (r : RecordSel) (s : State) :
    (s.mark r).writes = s.writes := by unfold State.mark; split <;> rfl
@[simp] theorem State.mark_heldRead (r : RecordSel) (s : State) :
    (s.mark r).heldRead = s.heldRead := by unfold State.mark; split <;> rfl
@[simp] theorem State.mark_heldWrite (r : RecordSel) (s : State) :
    (s.mark r).heldWrite = s.heldWrite := by unfold State.mark; split <;> rfl
@[simp] theorem State.mark_nextSerial (r : RecordSel) (s : State) :
    (s.mark r).nextSerial = s.nextSerial := by unfold State.mark; split <;> rfl
@[simp] theorem State.mark_busOut (r : RecordSel) (s : State) :
    (s.mark r).busOut = s.busOut := by unfold State.mark; split <;> rfl
@[simp] theorem State.mark_pending (r : RecordSel) (s : State) :
    (s.mark r).pending = s.pending := by unfold State.mark; split <;> rfl

/-! ### markAll -/

@[simp] theorem State.markAll_resetting (s : State) :
    (s.markAll).resetting = s.resetting := foldl_keeps State.resetting _ (fun _ _ => State.mark_resetting ..) _ _
@[simp] theorem State.markAll_powerEdge (s : State) :
    (s.markAll).powerEdge = s.powerEdge := foldl_keeps State.powerEdge _ (fun _ _ => State.mark_powerEdge ..) _ _
@[simp] theorem State.markAll_resetCause (s : State) :
    (s.markAll).resetCause = s.resetCause := foldl_keeps State.resetCause _ (fun _ _ => State.mark_resetCause ..) _ _
@[simp] theorem State.markAll_strap (s : State) :
    (s.markAll).strap = s.strap := foldl_keeps State.strap _ (fun _ _ => State.mark_strap ..) _ _
@[simp] theorem State.markAll_tick (s : State) :
    (s.markAll).tick = s.tick := foldl_keeps State.tick _ (fun _ _ => State.mark_tick ..) _ _
@[simp] theorem State.markAll_refA (s : State) :
    (s.markAll).refA = s.refA := foldl_keeps State.refA _ (fun _ _ => State.mark_refA ..) _ _
@[simp] theorem State.markAll_refB (s : State) :
    (s.markAll).refB = s.refB := foldl_keeps State.refB _ (fun _ _ => State.mark_refB ..) _ _
@[simp] theorem State.markAll_feeds (s : State) :
    (s.markAll).feeds = s.feeds := foldl_keeps State.feeds _ (fun _ _ => State.mark_feeds ..) _ _
@[simp] theorem State.markAll_outputs (s : State) :
    (s.markAll).outputs = s.outputs := foldl_keeps State.outputs _ (fun _ _ => State.mark_outputs ..) _ _
@[simp] theorem State.markAll_cache (s : State) :
    (s.markAll).cache = s.cache := foldl_keeps State.cache _ (fun _ _ => State.mark_cache ..) _ _
@[simp] theorem State.markAll_banks (s : State) :
    (s.markAll).banks = s.banks := foldl_keeps State.banks _ (fun _ _ => State.mark_banks ..) _ _
@[simp] theorem State.markAll_cells (s : State) :
    (s.markAll).cells = s.cells := foldl_keeps State.cells _ (fun _ _ => State.mark_cells ..) _ _
@[simp] theorem State.markAll_deviceWord (s : State) :
    (s.markAll).deviceWord = s.deviceWord := foldl_keeps State.deviceWord _ (fun _ _ => State.mark_deviceWord ..) _ _
@[simp] theorem State.markAll_deviceMask (s : State) :
    (s.markAll).deviceMask = s.deviceMask := foldl_keeps State.deviceMask _ (fun _ _ => State.mark_deviceMask ..) _ _
@[simp] theorem State.markAll_deviceUpdates (s : State) :
    (s.markAll).deviceUpdates = s.deviceUpdates := foldl_keeps State.deviceUpdates _ (fun _ _ => State.mark_deviceUpdates ..) _ _
@[simp] theorem State.markAll_notice (s : State) :
    (s.markAll).notice = s.notice := foldl_keeps State.notice _ (fun _ _ => State.mark_notice ..) _ _
@[simp] theorem State.markAll_class1 (s : State) :
    (s.markAll).class1 = s.class1 := foldl_keeps State.class1 _ (fun _ _ => State.mark_class1 ..) _ _
@[simp] theorem State.markAll_class2 (s : State) :
    (s.markAll).class2 = s.class2 := foldl_keeps State.class2 _ (fun _ _ => State.mark_class2 ..) _ _
@[simp] theorem State.markAll_pointer (s : State) :
    (s.markAll).pointer = s.pointer := foldl_keeps State.pointer _ (fun _ _ => State.mark_pointer ..) _ _
@[simp] theorem State.markAll_granted (s : State) :
    (s.markAll).granted = s.granted := foldl_keeps State.granted _ (fun _ _ => State.mark_granted ..) _ _
@[simp] theorem State.markAll_waitingSlate (s : State) :
    (s.markAll).waitingSlate = s.waitingSlate := foldl_keeps State.waitingSlate _ (fun _ _ => State.mark_waitingSlate ..) _ _
@[simp] theorem State.markAll_reads (s : State) :
    (s.markAll).reads = s.reads := foldl_keeps State.reads _ (fun _ _ => State.mark_reads ..) _ _
@[simp] theorem State.markAll_writes (s : State) :
    (s.markAll).writes = s.writes := foldl_keeps State.writes _ (fun _ _ => State.mark_writes ..) _ _
@[simp] theorem State.markAll_heldRead (s : State) :
    (s.markAll).heldRead = s.heldRead := foldl_keeps State.heldRead _ (fun _ _ => State.mark_heldRead ..) _ _
@[simp] theorem State.markAll_heldWrite (s : State) :
    (s.markAll).heldWrite = s.heldWrite := foldl_keeps State.heldWrite _ (fun _ _ => State.mark_heldWrite ..) _ _
@[simp] theorem State.markAll_nextSerial (s : State) :
    (s.markAll).nextSerial = s.nextSerial := foldl_keeps State.nextSerial _ (fun _ _ => State.mark_nextSerial ..) _ _
@[simp] theorem State.markAll_busOut (s : State) :
    (s.markAll).busOut = s.busOut := foldl_keeps State.busOut _ (fun _ _ => State.mark_busOut ..) _ _
@[simp] theorem State.markAll_pending (s : State) :
    (s.markAll).pending = s.pending := foldl_keeps State.pending _ (fun _ _ => State.mark_pending ..) _ _

/-! ### putDeviceWord -/

@[simp] theorem State.putDeviceWord_resetting (w : Conds) (s : State) :
    (s.putDeviceWord w).resetting = s.resetting := by
  unfold State.putDeviceWord; dsimp only; split
  · rfl
  · exact State.mark_resetting ..
@[simp] theorem State.putDeviceWord_powerEdge (w : Conds) (s : State) :
    (s.putDeviceWord w).powerEdge = s.powerEdge := by
  unfold State.putDeviceWord; dsimp only; split
  · rfl
  · exact State.mark_powerEdge ..
@[simp] theorem State.putDeviceWord_resetCause (w : Conds) (s : State) :
    (s.putDeviceWord w).resetCause = s.resetCause := by
  unfold State.putDeviceWord; dsimp only; split
  · rfl
  · exact State.mark_resetCause ..
@[simp] theorem State.putDeviceWord_strap (w : Conds) (s : State) :
    (s.putDeviceWord w).strap = s.strap := by
  unfold State.putDeviceWord; dsimp only; split
  · rfl
  · exact State.mark_strap ..
@[simp] theorem State.putDeviceWord_tick (w : Conds) (s : State) :
    (s.putDeviceWord w).tick = s.tick := by
  unfold State.putDeviceWord; dsimp only; split
  · rfl
  · exact State.mark_tick ..
@[simp] theorem State.putDeviceWord_refA (w : Conds) (s : State) :
    (s.putDeviceWord w).refA = s.refA := by
  unfold State.putDeviceWord; dsimp only; split
  · rfl
  · exact State.mark_refA ..
@[simp] theorem State.putDeviceWord_refB (w : Conds) (s : State) :
    (s.putDeviceWord w).refB = s.refB := by
  unfold State.putDeviceWord; dsimp only; split
  · rfl
  · exact State.mark_refB ..
@[simp] theorem State.putDeviceWord_feeds (w : Conds) (s : State) :
    (s.putDeviceWord w).feeds = s.feeds := by
  unfold State.putDeviceWord; dsimp only; split
  · rfl
  · exact State.mark_feeds ..
@[simp] theorem State.putDeviceWord_outputs (w : Conds) (s : State) :
    (s.putDeviceWord w).outputs = s.outputs := by
  unfold State.putDeviceWord; dsimp only; split
  · rfl
  · exact State.mark_outputs ..
@[simp] theorem State.putDeviceWord_cache (w : Conds) (s : State) :
    (s.putDeviceWord w).cache = s.cache := by
  unfold State.putDeviceWord; dsimp only; split
  · rfl
  · exact State.mark_cache ..
@[simp] theorem State.putDeviceWord_banks (w : Conds) (s : State) :
    (s.putDeviceWord w).banks = s.banks := by
  unfold State.putDeviceWord; dsimp only; split
  · rfl
  · exact State.mark_banks ..
@[simp] theorem State.putDeviceWord_cells (w : Conds) (s : State) :
    (s.putDeviceWord w).cells = s.cells := by
  unfold State.putDeviceWord; dsimp only; split
  · rfl
  · exact State.mark_cells ..
@[simp] theorem State.putDeviceWord_deviceMask (w : Conds) (s : State) :
    (s.putDeviceWord w).deviceMask = s.deviceMask := by
  unfold State.putDeviceWord; dsimp only; split
  · rfl
  · exact State.mark_deviceMask ..
@[simp] theorem State.putDeviceWord_deviceUpdates (w : Conds) (s : State) :
    (s.putDeviceWord w).deviceUpdates = s.deviceUpdates := by
  unfold State.putDeviceWord; dsimp only; split
  · rfl
  · exact State.mark_deviceUpdates ..
@[simp] theorem State.putDeviceWord_class1 (w : Conds) (s : State) :
    (s.putDeviceWord w).class1 = s.class1 := by
  unfold State.putDeviceWord; dsimp only; split
  · rfl
  · exact State.mark_class1 ..
@[simp] theorem State.putDeviceWord_class2 (w : Conds) (s : State) :
    (s.putDeviceWord w).class2 = s.class2 := by
  unfold State.putDeviceWord; dsimp only; split
  · rfl
  · exact State.mark_class2 ..
@[simp] theorem State.putDeviceWord_pointer (w : Conds) (s : State) :
    (s.putDeviceWord w).pointer = s.pointer := by
  unfold State.putDeviceWord; dsimp only; split
  · rfl
  · exact State.mark_pointer ..
@[simp] theorem State.putDeviceWord_granted (w : Conds) (s : State) :
    (s.putDeviceWord w).granted = s.granted := by
  unfold State.putDeviceWord; dsimp only; split
  · rfl
  · exact State.mark_granted ..
@[simp] theorem State.putDeviceWord_waitingSlate (w : Conds) (s : State) :
    (s.putDeviceWord w).waitingSlate = s.waitingSlate := by
  unfold State.putDeviceWord; dsimp only; split
  · rfl
  · exact State.mark_waitingSlate ..
@[simp] theorem State.putDeviceWord_reads (w : Conds) (s : State) :
    (s.putDeviceWord w).reads = s.reads := by
  unfold State.putDeviceWord; dsimp only; split
  · rfl
  · exact State.mark_reads ..
@[simp] theorem State.putDeviceWord_writes (w : Conds) (s : State) :
    (s.putDeviceWord w).writes = s.writes := by
  unfold State.putDeviceWord; dsimp only; split
  · rfl
  · exact State.mark_writes ..
@[simp] theorem State.putDeviceWord_heldRead (w : Conds) (s : State) :
    (s.putDeviceWord w).heldRead = s.heldRead := by
  unfold State.putDeviceWord; dsimp only; split
  · rfl
  · exact State.mark_heldRead ..
@[simp] theorem State.putDeviceWord_heldWrite (w : Conds) (s : State) :
    (s.putDeviceWord w).heldWrite = s.heldWrite := by
  unfold State.putDeviceWord; dsimp only; split
  · rfl
  · exact State.mark_heldWrite ..
@[simp] theorem State.putDeviceWord_nextSerial (w : Conds) (s : State) :
    (s.putDeviceWord w).nextSerial = s.nextSerial := by
  unfold State.putDeviceWord; dsimp only; split
  · rfl
  · exact State.mark_nextSerial ..
@[simp] theorem State.putDeviceWord_busOut (w : Conds) (s : State) :
    (s.putDeviceWord w).busOut = s.busOut := by
  unfold State.putDeviceWord; dsimp only; split
  · rfl
  · exact State.mark_busOut ..
@[simp] theorem State.putDeviceWord_pending (w : Conds) (s : State) :
    (s.putDeviceWord w).pending = s.pending := by
  unfold State.putDeviceWord; dsimp only; split
  · rfl
  · exact State.mark_pending ..

/-! ### refresh -/

@[simp] theorem State.refresh_resetting (s : State) :
    (s.refresh).resetting = s.resetting := State.putDeviceWord_resetting ..
@[simp] theorem State.refresh_powerEdge (s : State) :
    (s.refresh).powerEdge = s.powerEdge := State.putDeviceWord_powerEdge ..
@[simp] theorem State.refresh_resetCause (s : State) :
    (s.refresh).resetCause = s.resetCause := State.putDeviceWord_resetCause ..
@[simp] theorem State.refresh_strap (s : State) :
    (s.refresh).strap = s.strap := State.putDeviceWord_strap ..
@[simp] theorem State.refresh_tick (s : State) :
    (s.refresh).tick = s.tick := State.putDeviceWord_tick ..
@[simp] theorem State.refresh_refA (s : State) :
    (s.refresh).refA = s.refA := State.putDeviceWord_refA ..
@[simp] theorem State.refresh_refB (s : State) :
    (s.refresh).refB = s.refB := State.putDeviceWord_refB ..
@[simp] theorem State.refresh_feeds (s : State) :
    (s.refresh).feeds = s.feeds := State.putDeviceWord_feeds ..
@[simp] theorem State.refresh_outputs (s : State) :
    (s.refresh).outputs = s.outputs := State.putDeviceWord_outputs ..
@[simp] theorem State.refresh_cache (s : State) :
    (s.refresh).cache = s.cache := State.putDeviceWord_cache ..
@[simp] theorem State.refresh_banks (s : State) :
    (s.refresh).banks = s.banks := State.putDeviceWord_banks ..
@[simp] theorem State.refresh_cells (s : State) :
    (s.refresh).cells = s.cells := State.putDeviceWord_cells ..
@[simp] theorem State.refresh_deviceMask (s : State) :
    (s.refresh).deviceMask = s.deviceMask := State.putDeviceWord_deviceMask ..
@[simp] theorem State.refresh_deviceUpdates (s : State) :
    (s.refresh).deviceUpdates = s.deviceUpdates := State.putDeviceWord_deviceUpdates ..
@[simp] theorem State.refresh_class1 (s : State) :
    (s.refresh).class1 = s.class1 := State.putDeviceWord_class1 ..
@[simp] theorem State.refresh_class2 (s : State) :
    (s.refresh).class2 = s.class2 := State.putDeviceWord_class2 ..
@[simp] theorem State.refresh_pointer (s : State) :
    (s.refresh).pointer = s.pointer := State.putDeviceWord_pointer ..
@[simp] theorem State.refresh_granted (s : State) :
    (s.refresh).granted = s.granted := State.putDeviceWord_granted ..
@[simp] theorem State.refresh_waitingSlate (s : State) :
    (s.refresh).waitingSlate = s.waitingSlate := State.putDeviceWord_waitingSlate ..
@[simp] theorem State.refresh_reads (s : State) :
    (s.refresh).reads = s.reads := State.putDeviceWord_reads ..
@[simp] theorem State.refresh_writes (s : State) :
    (s.refresh).writes = s.writes := State.putDeviceWord_writes ..
@[simp] theorem State.refresh_heldRead (s : State) :
    (s.refresh).heldRead = s.heldRead := State.putDeviceWord_heldRead ..
@[simp] theorem State.refresh_heldWrite (s : State) :
    (s.refresh).heldWrite = s.heldWrite := State.putDeviceWord_heldWrite ..
@[simp] theorem State.refresh_nextSerial (s : State) :
    (s.refresh).nextSerial = s.nextSerial := State.putDeviceWord_nextSerial ..
@[simp] theorem State.refresh_busOut (s : State) :
    (s.refresh).busOut = s.busOut := State.putDeviceWord_busOut ..
@[simp] theorem State.refresh_pending (s : State) :
    (s.refresh).pending = s.pending := State.putDeviceWord_pending ..

/-! ### setDevice -/

@[simp] theorem State.setDevice_resetting (c : Conds) (s : State) :
    (s.setDevice c).resetting = s.resetting := State.putDeviceWord_resetting ..
@[simp] theorem State.setDevice_powerEdge (c : Conds) (s : State) :
    (s.setDevice c).powerEdge = s.powerEdge := State.putDeviceWord_powerEdge ..
@[simp] theorem State.setDevice_resetCause (c : Conds) (s : State) :
    (s.setDevice c).resetCause = s.resetCause := State.putDeviceWord_resetCause ..
@[simp] theorem State.setDevice_strap (c : Conds) (s : State) :
    (s.setDevice c).strap = s.strap := State.putDeviceWord_strap ..
@[simp] theorem State.setDevice_tick (c : Conds) (s : State) :
    (s.setDevice c).tick = s.tick := State.putDeviceWord_tick ..
@[simp] theorem State.setDevice_refA (c : Conds) (s : State) :
    (s.setDevice c).refA = s.refA := State.putDeviceWord_refA ..
@[simp] theorem State.setDevice_refB (c : Conds) (s : State) :
    (s.setDevice c).refB = s.refB := State.putDeviceWord_refB ..
@[simp] theorem State.setDevice_feeds (c : Conds) (s : State) :
    (s.setDevice c).feeds = s.feeds := State.putDeviceWord_feeds ..
@[simp] theorem State.setDevice_outputs (c : Conds) (s : State) :
    (s.setDevice c).outputs = s.outputs := State.putDeviceWord_outputs ..
@[simp] theorem State.setDevice_cache (c : Conds) (s : State) :
    (s.setDevice c).cache = s.cache := State.putDeviceWord_cache ..
@[simp] theorem State.setDevice_banks (c : Conds) (s : State) :
    (s.setDevice c).banks = s.banks := State.putDeviceWord_banks ..
@[simp] theorem State.setDevice_cells (c : Conds) (s : State) :
    (s.setDevice c).cells = s.cells := State.putDeviceWord_cells ..
@[simp] theorem State.setDevice_deviceMask (c : Conds) (s : State) :
    (s.setDevice c).deviceMask = s.deviceMask := State.putDeviceWord_deviceMask ..
@[simp] theorem State.setDevice_deviceUpdates (c : Conds) (s : State) :
    (s.setDevice c).deviceUpdates = s.deviceUpdates := State.putDeviceWord_deviceUpdates ..
@[simp] theorem State.setDevice_class1 (c : Conds) (s : State) :
    (s.setDevice c).class1 = s.class1 := State.putDeviceWord_class1 ..
@[simp] theorem State.setDevice_class2 (c : Conds) (s : State) :
    (s.setDevice c).class2 = s.class2 := State.putDeviceWord_class2 ..
@[simp] theorem State.setDevice_pointer (c : Conds) (s : State) :
    (s.setDevice c).pointer = s.pointer := State.putDeviceWord_pointer ..
@[simp] theorem State.setDevice_granted (c : Conds) (s : State) :
    (s.setDevice c).granted = s.granted := State.putDeviceWord_granted ..
@[simp] theorem State.setDevice_waitingSlate (c : Conds) (s : State) :
    (s.setDevice c).waitingSlate = s.waitingSlate := State.putDeviceWord_waitingSlate ..
@[simp] theorem State.setDevice_reads (c : Conds) (s : State) :
    (s.setDevice c).reads = s.reads := State.putDeviceWord_reads ..
@[simp] theorem State.setDevice_writes (c : Conds) (s : State) :
    (s.setDevice c).writes = s.writes := State.putDeviceWord_writes ..
@[simp] theorem State.setDevice_heldRead (c : Conds) (s : State) :
    (s.setDevice c).heldRead = s.heldRead := State.putDeviceWord_heldRead ..
@[simp] theorem State.setDevice_heldWrite (c : Conds) (s : State) :
    (s.setDevice c).heldWrite = s.heldWrite := State.putDeviceWord_heldWrite ..
@[simp] theorem State.setDevice_nextSerial (c : Conds) (s : State) :
    (s.setDevice c).nextSerial = s.nextSerial := State.putDeviceWord_nextSerial ..
@[simp] theorem State.setDevice_busOut (c : Conds) (s : State) :
    (s.setDevice c).busOut = s.busOut := State.putDeviceWord_busOut ..
@[simp] theorem State.setDevice_pending (c : Conds) (s : State) :
    (s.setDevice c).pending = s.pending := State.putDeviceWord_pending ..

/-! ### putFeed -/

@[simp] theorem State.putFeed_resetting (f : FeedId) (x : Feed) (s : State) :
    (s.putFeed f x).resetting = s.resetting := by
  refine (State.refresh_resetting _).trans ?_; split
  · rfl
  · exact State.mark_resetting ..
@[simp] theorem State.putFeed_powerEdge (f : FeedId) (x : Feed) (s : State) :
    (s.putFeed f x).powerEdge = s.powerEdge := by
  refine (State.refresh_powerEdge _).trans ?_; split
  · rfl
  · exact State.mark_powerEdge ..
@[simp] theorem State.putFeed_resetCause (f : FeedId) (x : Feed) (s : State) :
    (s.putFeed f x).resetCause = s.resetCause := by
  refine (State.refresh_resetCause _).trans ?_; split
  · rfl
  · exact State.mark_resetCause ..
@[simp] theorem State.putFeed_strap (f : FeedId) (x : Feed) (s : State) :
    (s.putFeed f x).strap = s.strap := by
  refine (State.refresh_strap _).trans ?_; split
  · rfl
  · exact State.mark_strap ..
@[simp] theorem State.putFeed_tick (f : FeedId) (x : Feed) (s : State) :
    (s.putFeed f x).tick = s.tick := by
  refine (State.refresh_tick _).trans ?_; split
  · rfl
  · exact State.mark_tick ..
@[simp] theorem State.putFeed_refA (f : FeedId) (x : Feed) (s : State) :
    (s.putFeed f x).refA = s.refA := by
  refine (State.refresh_refA _).trans ?_; split
  · rfl
  · exact State.mark_refA ..
@[simp] theorem State.putFeed_refB (f : FeedId) (x : Feed) (s : State) :
    (s.putFeed f x).refB = s.refB := by
  refine (State.refresh_refB _).trans ?_; split
  · rfl
  · exact State.mark_refB ..
@[simp] theorem State.putFeed_outputs (f : FeedId) (x : Feed) (s : State) :
    (s.putFeed f x).outputs = s.outputs := by
  refine (State.refresh_outputs _).trans ?_; split
  · rfl
  · exact State.mark_outputs ..
@[simp] theorem State.putFeed_cache (f : FeedId) (x : Feed) (s : State) :
    (s.putFeed f x).cache = s.cache := by
  refine (State.refresh_cache _).trans ?_; split
  · rfl
  · exact State.mark_cache ..
@[simp] theorem State.putFeed_banks (f : FeedId) (x : Feed) (s : State) :
    (s.putFeed f x).banks = s.banks := by
  refine (State.refresh_banks _).trans ?_; split
  · rfl
  · exact State.mark_banks ..
@[simp] theorem State.putFeed_cells (f : FeedId) (x : Feed) (s : State) :
    (s.putFeed f x).cells = s.cells := by
  refine (State.refresh_cells _).trans ?_; split
  · rfl
  · exact State.mark_cells ..
@[simp] theorem State.putFeed_deviceMask (f : FeedId) (x : Feed) (s : State) :
    (s.putFeed f x).deviceMask = s.deviceMask := by
  refine (State.refresh_deviceMask _).trans ?_; split
  · rfl
  · exact State.mark_deviceMask ..
@[simp] theorem State.putFeed_deviceUpdates (f : FeedId) (x : Feed) (s : State) :
    (s.putFeed f x).deviceUpdates = s.deviceUpdates := by
  refine (State.refresh_deviceUpdates _).trans ?_; split
  · rfl
  · exact State.mark_deviceUpdates ..
@[simp] theorem State.putFeed_class1 (f : FeedId) (x : Feed) (s : State) :
    (s.putFeed f x).class1 = s.class1 := by
  refine (State.refresh_class1 _).trans ?_; split
  · rfl
  · exact State.mark_class1 ..
@[simp] theorem State.putFeed_class2 (f : FeedId) (x : Feed) (s : State) :
    (s.putFeed f x).class2 = s.class2 := by
  refine (State.refresh_class2 _).trans ?_; split
  · rfl
  · exact State.mark_class2 ..
@[simp] theorem State.putFeed_pointer (f : FeedId) (x : Feed) (s : State) :
    (s.putFeed f x).pointer = s.pointer := by
  refine (State.refresh_pointer _).trans ?_; split
  · rfl
  · exact State.mark_pointer ..
@[simp] theorem State.putFeed_granted (f : FeedId) (x : Feed) (s : State) :
    (s.putFeed f x).granted = s.granted := by
  refine (State.refresh_granted _).trans ?_; split
  · rfl
  · exact State.mark_granted ..
@[simp] theorem State.putFeed_waitingSlate (f : FeedId) (x : Feed) (s : State) :
    (s.putFeed f x).waitingSlate = s.waitingSlate := by
  refine (State.refresh_waitingSlate _).trans ?_; split
  · rfl
  · exact State.mark_waitingSlate ..
@[simp] theorem State.putFeed_reads (f : FeedId) (x : Feed) (s : State) :
    (s.putFeed f x).reads = s.reads := by
  refine (State.refresh_reads _).trans ?_; split
  · rfl
  · exact State.mark_reads ..
@[simp] theorem State.putFeed_writes (f : FeedId) (x : Feed) (s : State) :
    (s.putFeed f x).writes = s.writes := by
  refine (State.refresh_writes _).trans ?_; split
  · rfl
  · exact State.mark_writes ..
@[simp] theorem State.putFeed_heldRead (f : FeedId) (x : Feed) (s : State) :
    (s.putFeed f x).heldRead = s.heldRead := by
  refine (State.refresh_heldRead _).trans ?_; split
  · rfl
  · exact State.mark_heldRead ..
@[simp] theorem State.putFeed_heldWrite (f : FeedId) (x : Feed) (s : State) :
    (s.putFeed f x).heldWrite = s.heldWrite := by
  refine (State.refresh_heldWrite _).trans ?_; split
  · rfl
  · exact State.mark_heldWrite ..
@[simp] theorem State.putFeed_nextSerial (f : FeedId) (x : Feed) (s : State) :
    (s.putFeed f x).nextSerial = s.nextSerial := by
  refine (State.refresh_nextSerial _).trans ?_; split
  · rfl
  · exact State.mark_nextSerial ..
@[simp] theorem State.putFeed_busOut (f : FeedId) (x : Feed) (s : State) :
    (s.putFeed f x).busOut = s.busOut := by
  refine (State.refresh_busOut _).trans ?_; split
  · rfl
  · exact State.mark_busOut ..
@[simp] theorem State.putFeed_pending (f : FeedId) (x : Feed) (s : State) :
    (s.putFeed f x).pending = s.pending := by
  refine (State.refresh_pending _).trans ?_; split
  · rfl
  · exact State.mark_pending ..

/-! ### modifyFeed -/

@[simp] theorem State.modifyFeed_resetting (f : FeedId) (g : Feed → Feed) (s : State) :
    (s.modifyFeed f g).resetting = s.resetting := State.putFeed_resetting ..
@[simp] theorem State.modifyFeed_powerEdge (f : FeedId) (g : Feed → Feed) (s : State) :
    (s.modifyFeed f g).powerEdge = s.powerEdge := State.putFeed_powerEdge ..
@[simp] theorem State.modifyFeed_resetCause (f : FeedId) (g : Feed → Feed) (s : State) :
    (s.modifyFeed f g).resetCause = s.resetCause := State.putFeed_resetCause ..
@[simp] theorem State.modifyFeed_strap (f : FeedId) (g : Feed → Feed) (s : State) :
    (s.modifyFeed f g).strap = s.strap := State.putFeed_strap ..
@[simp] theorem State.modifyFeed_tick (f : FeedId) (g : Feed → Feed) (s : State) :
    (s.modifyFeed f g).tick = s.tick := State.putFeed_tick ..
@[simp] theorem State.modifyFeed_refA (f : FeedId) (g : Feed → Feed) (s : State) :
    (s.modifyFeed f g).refA = s.refA := State.putFeed_refA ..
@[simp] theorem State.modifyFeed_refB (f : FeedId) (g : Feed → Feed) (s : State) :
    (s.modifyFeed f g).refB = s.refB := State.putFeed_refB ..
@[simp] theorem State.modifyFeed_outputs (f : FeedId) (g : Feed → Feed) (s : State) :
    (s.modifyFeed f g).outputs = s.outputs := State.putFeed_outputs ..
@[simp] theorem State.modifyFeed_cache (f : FeedId) (g : Feed → Feed) (s : State) :
    (s.modifyFeed f g).cache = s.cache := State.putFeed_cache ..
@[simp] theorem State.modifyFeed_banks (f : FeedId) (g : Feed → Feed) (s : State) :
    (s.modifyFeed f g).banks = s.banks := State.putFeed_banks ..
@[simp] theorem State.modifyFeed_cells (f : FeedId) (g : Feed → Feed) (s : State) :
    (s.modifyFeed f g).cells = s.cells := State.putFeed_cells ..
@[simp] theorem State.modifyFeed_deviceMask (f : FeedId) (g : Feed → Feed) (s : State) :
    (s.modifyFeed f g).deviceMask = s.deviceMask := State.putFeed_deviceMask ..
@[simp] theorem State.modifyFeed_deviceUpdates (f : FeedId) (g : Feed → Feed) (s : State) :
    (s.modifyFeed f g).deviceUpdates = s.deviceUpdates := State.putFeed_deviceUpdates ..
@[simp] theorem State.modifyFeed_class1 (f : FeedId) (g : Feed → Feed) (s : State) :
    (s.modifyFeed f g).class1 = s.class1 := State.putFeed_class1 ..
@[simp] theorem State.modifyFeed_class2 (f : FeedId) (g : Feed → Feed) (s : State) :
    (s.modifyFeed f g).class2 = s.class2 := State.putFeed_class2 ..
@[simp] theorem State.modifyFeed_pointer (f : FeedId) (g : Feed → Feed) (s : State) :
    (s.modifyFeed f g).pointer = s.pointer := State.putFeed_pointer ..
@[simp] theorem State.modifyFeed_granted (f : FeedId) (g : Feed → Feed) (s : State) :
    (s.modifyFeed f g).granted = s.granted := State.putFeed_granted ..
@[simp] theorem State.modifyFeed_waitingSlate (f : FeedId) (g : Feed → Feed) (s : State) :
    (s.modifyFeed f g).waitingSlate = s.waitingSlate := State.putFeed_waitingSlate ..
@[simp] theorem State.modifyFeed_reads (f : FeedId) (g : Feed → Feed) (s : State) :
    (s.modifyFeed f g).reads = s.reads := State.putFeed_reads ..
@[simp] theorem State.modifyFeed_writes (f : FeedId) (g : Feed → Feed) (s : State) :
    (s.modifyFeed f g).writes = s.writes := State.putFeed_writes ..
@[simp] theorem State.modifyFeed_heldRead (f : FeedId) (g : Feed → Feed) (s : State) :
    (s.modifyFeed f g).heldRead = s.heldRead := State.putFeed_heldRead ..
@[simp] theorem State.modifyFeed_heldWrite (f : FeedId) (g : Feed → Feed) (s : State) :
    (s.modifyFeed f g).heldWrite = s.heldWrite := State.putFeed_heldWrite ..
@[simp] theorem State.modifyFeed_nextSerial (f : FeedId) (g : Feed → Feed) (s : State) :
    (s.modifyFeed f g).nextSerial = s.nextSerial := State.putFeed_nextSerial ..
@[simp] theorem State.modifyFeed_busOut (f : FeedId) (g : Feed → Feed) (s : State) :
    (s.modifyFeed f g).busOut = s.busOut := State.putFeed_busOut ..
@[simp] theorem State.modifyFeed_pending (f : FeedId) (g : Feed → Feed) (s : State) :
    (s.modifyFeed f g).pending = s.pending := State.putFeed_pending ..

/-! ### setFeedCond -/

@[simp] theorem State.setFeedCond_resetting (f : FeedId) (c : Conds) (s : State) :
    (s.setFeedCond f c).resetting = s.resetting := State.putFeed_resetting ..
@[simp] theorem State.setFeedCond_powerEdge (f : FeedId) (c : Conds) (s : State) :
    (s.setFeedCond f c).powerEdge = s.powerEdge := State.putFeed_powerEdge ..
@[simp] theorem State.setFeedCond_resetCause (f : FeedId) (c : Conds) (s : State) :
    (s.setFeedCond f c).resetCause = s.resetCause := State.putFeed_resetCause ..
@[simp] theorem State.setFeedCond_strap (f : FeedId) (c : Conds) (s : State) :
    (s.setFeedCond f c).strap = s.strap := State.putFeed_strap ..
@[simp] theorem State.setFeedCond_tick (f : FeedId) (c : Conds) (s : State) :
    (s.setFeedCond f c).tick = s.tick := State.putFeed_tick ..
@[simp] theorem State.setFeedCond_refA (f : FeedId) (c : Conds) (s : State) :
    (s.setFeedCond f c).refA = s.refA := State.putFeed_refA ..
@[simp] theorem State.setFeedCond_refB (f : FeedId) (c : Conds) (s : State) :
    (s.setFeedCond f c).refB = s.refB := State.putFeed_refB ..
@[simp] theorem State.setFeedCond_outputs (f : FeedId) (c : Conds) (s : State) :
    (s.setFeedCond f c).outputs = s.outputs := State.putFeed_outputs ..
@[simp] theorem State.setFeedCond_cache (f : FeedId) (c : Conds) (s : State) :
    (s.setFeedCond f c).cache = s.cache := State.putFeed_cache ..
@[simp] theorem State.setFeedCond_banks (f : FeedId) (c : Conds) (s : State) :
    (s.setFeedCond f c).banks = s.banks := State.putFeed_banks ..
@[simp] theorem State.setFeedCond_cells (f : FeedId) (c : Conds) (s : State) :
    (s.setFeedCond f c).cells = s.cells := State.putFeed_cells ..
@[simp] theorem State.setFeedCond_deviceMask (f : FeedId) (c : Conds) (s : State) :
    (s.setFeedCond f c).deviceMask = s.deviceMask := State.putFeed_deviceMask ..
@[simp] theorem State.setFeedCond_deviceUpdates (f : FeedId) (c : Conds) (s : State) :
    (s.setFeedCond f c).deviceUpdates = s.deviceUpdates := State.putFeed_deviceUpdates ..
@[simp] theorem State.setFeedCond_class1 (f : FeedId) (c : Conds) (s : State) :
    (s.setFeedCond f c).class1 = s.class1 := State.putFeed_class1 ..
@[simp] theorem State.setFeedCond_class2 (f : FeedId) (c : Conds) (s : State) :
    (s.setFeedCond f c).class2 = s.class2 := State.putFeed_class2 ..
@[simp] theorem State.setFeedCond_pointer (f : FeedId) (c : Conds) (s : State) :
    (s.setFeedCond f c).pointer = s.pointer := State.putFeed_pointer ..
@[simp] theorem State.setFeedCond_granted (f : FeedId) (c : Conds) (s : State) :
    (s.setFeedCond f c).granted = s.granted := State.putFeed_granted ..
@[simp] theorem State.setFeedCond_waitingSlate (f : FeedId) (c : Conds) (s : State) :
    (s.setFeedCond f c).waitingSlate = s.waitingSlate := State.putFeed_waitingSlate ..
@[simp] theorem State.setFeedCond_reads (f : FeedId) (c : Conds) (s : State) :
    (s.setFeedCond f c).reads = s.reads := State.putFeed_reads ..
@[simp] theorem State.setFeedCond_writes (f : FeedId) (c : Conds) (s : State) :
    (s.setFeedCond f c).writes = s.writes := State.putFeed_writes ..
@[simp] theorem State.setFeedCond_heldRead (f : FeedId) (c : Conds) (s : State) :
    (s.setFeedCond f c).heldRead = s.heldRead := State.putFeed_heldRead ..
@[simp] theorem State.setFeedCond_heldWrite (f : FeedId) (c : Conds) (s : State) :
    (s.setFeedCond f c).heldWrite = s.heldWrite := State.putFeed_heldWrite ..
@[simp] theorem State.setFeedCond_nextSerial (f : FeedId) (c : Conds) (s : State) :
    (s.setFeedCond f c).nextSerial = s.nextSerial := State.putFeed_nextSerial ..
@[simp] theorem State.setFeedCond_busOut (f : FeedId) (c : Conds) (s : State) :
    (s.setFeedCond f c).busOut = s.busOut := State.putFeed_busOut ..
@[simp] theorem State.setFeedCond_pending (f : FeedId) (c : Conds) (s : State) :
    (s.setFeedCond f c).pending = s.pending := State.putFeed_pending ..

/-! ### putOutput -/

@[simp] theorem State.putOutput_resetting (o : OutId) (x : Output) (s : State) :
    (s.putOutput o x).resetting = s.resetting := by
  refine (State.refresh_resetting _).trans ?_; split
  · rfl
  · exact State.mark_resetting ..
@[simp] theorem State.putOutput_powerEdge (o : OutId) (x : Output) (s : State) :
    (s.putOutput o x).powerEdge = s.powerEdge := by
  refine (State.refresh_powerEdge _).trans ?_; split
  · rfl
  · exact State.mark_powerEdge ..
@[simp] theorem State.putOutput_resetCause (o : OutId) (x : Output) (s : State) :
    (s.putOutput o x).resetCause = s.resetCause := by
  refine (State.refresh_resetCause _).trans ?_; split
  · rfl
  · exact State.mark_resetCause ..
@[simp] theorem State.putOutput_strap (o : OutId) (x : Output) (s : State) :
    (s.putOutput o x).strap = s.strap := by
  refine (State.refresh_strap _).trans ?_; split
  · rfl
  · exact State.mark_strap ..
@[simp] theorem State.putOutput_tick (o : OutId) (x : Output) (s : State) :
    (s.putOutput o x).tick = s.tick := by
  refine (State.refresh_tick _).trans ?_; split
  · rfl
  · exact State.mark_tick ..
@[simp] theorem State.putOutput_refA (o : OutId) (x : Output) (s : State) :
    (s.putOutput o x).refA = s.refA := by
  refine (State.refresh_refA _).trans ?_; split
  · rfl
  · exact State.mark_refA ..
@[simp] theorem State.putOutput_refB (o : OutId) (x : Output) (s : State) :
    (s.putOutput o x).refB = s.refB := by
  refine (State.refresh_refB _).trans ?_; split
  · rfl
  · exact State.mark_refB ..
@[simp] theorem State.putOutput_feeds (o : OutId) (x : Output) (s : State) :
    (s.putOutput o x).feeds = s.feeds := by
  refine (State.refresh_feeds _).trans ?_; split
  · rfl
  · exact State.mark_feeds ..
@[simp] theorem State.putOutput_cache (o : OutId) (x : Output) (s : State) :
    (s.putOutput o x).cache = s.cache := by
  refine (State.refresh_cache _).trans ?_; split
  · rfl
  · exact State.mark_cache ..
@[simp] theorem State.putOutput_banks (o : OutId) (x : Output) (s : State) :
    (s.putOutput o x).banks = s.banks := by
  refine (State.refresh_banks _).trans ?_; split
  · rfl
  · exact State.mark_banks ..
@[simp] theorem State.putOutput_cells (o : OutId) (x : Output) (s : State) :
    (s.putOutput o x).cells = s.cells := by
  refine (State.refresh_cells _).trans ?_; split
  · rfl
  · exact State.mark_cells ..
@[simp] theorem State.putOutput_deviceMask (o : OutId) (x : Output) (s : State) :
    (s.putOutput o x).deviceMask = s.deviceMask := by
  refine (State.refresh_deviceMask _).trans ?_; split
  · rfl
  · exact State.mark_deviceMask ..
@[simp] theorem State.putOutput_deviceUpdates (o : OutId) (x : Output) (s : State) :
    (s.putOutput o x).deviceUpdates = s.deviceUpdates := by
  refine (State.refresh_deviceUpdates _).trans ?_; split
  · rfl
  · exact State.mark_deviceUpdates ..
@[simp] theorem State.putOutput_class1 (o : OutId) (x : Output) (s : State) :
    (s.putOutput o x).class1 = s.class1 := by
  refine (State.refresh_class1 _).trans ?_; split
  · rfl
  · exact State.mark_class1 ..
@[simp] theorem State.putOutput_class2 (o : OutId) (x : Output) (s : State) :
    (s.putOutput o x).class2 = s.class2 := by
  refine (State.refresh_class2 _).trans ?_; split
  · rfl
  · exact State.mark_class2 ..
@[simp] theorem State.putOutput_pointer (o : OutId) (x : Output) (s : State) :
    (s.putOutput o x).pointer = s.pointer := by
  refine (State.refresh_pointer _).trans ?_; split
  · rfl
  · exact State.mark_pointer ..
@[simp] theorem State.putOutput_granted (o : OutId) (x : Output) (s : State) :
    (s.putOutput o x).granted = s.granted := by
  refine (State.refresh_granted _).trans ?_; split
  · rfl
  · exact State.mark_granted ..
@[simp] theorem State.putOutput_waitingSlate (o : OutId) (x : Output) (s : State) :
    (s.putOutput o x).waitingSlate = s.waitingSlate := by
  refine (State.refresh_waitingSlate _).trans ?_; split
  · rfl
  · exact State.mark_waitingSlate ..
@[simp] theorem State.putOutput_reads (o : OutId) (x : Output) (s : State) :
    (s.putOutput o x).reads = s.reads := by
  refine (State.refresh_reads _).trans ?_; split
  · rfl
  · exact State.mark_reads ..
@[simp] theorem State.putOutput_writes (o : OutId) (x : Output) (s : State) :
    (s.putOutput o x).writes = s.writes := by
  refine (State.refresh_writes _).trans ?_; split
  · rfl
  · exact State.mark_writes ..
@[simp] theorem State.putOutput_heldRead (o : OutId) (x : Output) (s : State) :
    (s.putOutput o x).heldRead = s.heldRead := by
  refine (State.refresh_heldRead _).trans ?_; split
  · rfl
  · exact State.mark_heldRead ..
@[simp] theorem State.putOutput_heldWrite (o : OutId) (x : Output) (s : State) :
    (s.putOutput o x).heldWrite = s.heldWrite := by
  refine (State.refresh_heldWrite _).trans ?_; split
  · rfl
  · exact State.mark_heldWrite ..
@[simp] theorem State.putOutput_nextSerial (o : OutId) (x : Output) (s : State) :
    (s.putOutput o x).nextSerial = s.nextSerial := by
  refine (State.refresh_nextSerial _).trans ?_; split
  · rfl
  · exact State.mark_nextSerial ..
@[simp] theorem State.putOutput_busOut (o : OutId) (x : Output) (s : State) :
    (s.putOutput o x).busOut = s.busOut := by
  refine (State.refresh_busOut _).trans ?_; split
  · rfl
  · exact State.mark_busOut ..
@[simp] theorem State.putOutput_pending (o : OutId) (x : Output) (s : State) :
    (s.putOutput o x).pending = s.pending := by
  refine (State.refresh_pending _).trans ?_; split
  · rfl
  · exact State.mark_pending ..

/-! ### modifyOutput -/

@[simp] theorem State.modifyOutput_resetting (o : OutId) (g : Output → Output) (s : State) :
    (s.modifyOutput o g).resetting = s.resetting := State.putOutput_resetting ..
@[simp] theorem State.modifyOutput_powerEdge (o : OutId) (g : Output → Output) (s : State) :
    (s.modifyOutput o g).powerEdge = s.powerEdge := State.putOutput_powerEdge ..
@[simp] theorem State.modifyOutput_resetCause (o : OutId) (g : Output → Output) (s : State) :
    (s.modifyOutput o g).resetCause = s.resetCause := State.putOutput_resetCause ..
@[simp] theorem State.modifyOutput_strap (o : OutId) (g : Output → Output) (s : State) :
    (s.modifyOutput o g).strap = s.strap := State.putOutput_strap ..
@[simp] theorem State.modifyOutput_tick (o : OutId) (g : Output → Output) (s : State) :
    (s.modifyOutput o g).tick = s.tick := State.putOutput_tick ..
@[simp] theorem State.modifyOutput_refA (o : OutId) (g : Output → Output) (s : State) :
    (s.modifyOutput o g).refA = s.refA := State.putOutput_refA ..
@[simp] theorem State.modifyOutput_refB (o : OutId) (g : Output → Output) (s : State) :
    (s.modifyOutput o g).refB = s.refB := State.putOutput_refB ..
@[simp] theorem State.modifyOutput_feeds (o : OutId) (g : Output → Output) (s : State) :
    (s.modifyOutput o g).feeds = s.feeds := State.putOutput_feeds ..
@[simp] theorem State.modifyOutput_cache (o : OutId) (g : Output → Output) (s : State) :
    (s.modifyOutput o g).cache = s.cache := State.putOutput_cache ..
@[simp] theorem State.modifyOutput_banks (o : OutId) (g : Output → Output) (s : State) :
    (s.modifyOutput o g).banks = s.banks := State.putOutput_banks ..
@[simp] theorem State.modifyOutput_cells (o : OutId) (g : Output → Output) (s : State) :
    (s.modifyOutput o g).cells = s.cells := State.putOutput_cells ..
@[simp] theorem State.modifyOutput_deviceMask (o : OutId) (g : Output → Output) (s : State) :
    (s.modifyOutput o g).deviceMask = s.deviceMask := State.putOutput_deviceMask ..
@[simp] theorem State.modifyOutput_deviceUpdates (o : OutId) (g : Output → Output) (s : State) :
    (s.modifyOutput o g).deviceUpdates = s.deviceUpdates := State.putOutput_deviceUpdates ..
@[simp] theorem State.modifyOutput_class1 (o : OutId) (g : Output → Output) (s : State) :
    (s.modifyOutput o g).class1 = s.class1 := State.putOutput_class1 ..
@[simp] theorem State.modifyOutput_class2 (o : OutId) (g : Output → Output) (s : State) :
    (s.modifyOutput o g).class2 = s.class2 := State.putOutput_class2 ..
@[simp] theorem State.modifyOutput_pointer (o : OutId) (g : Output → Output) (s : State) :
    (s.modifyOutput o g).pointer = s.pointer := State.putOutput_pointer ..
@[simp] theorem State.modifyOutput_granted (o : OutId) (g : Output → Output) (s : State) :
    (s.modifyOutput o g).granted = s.granted := State.putOutput_granted ..
@[simp] theorem State.modifyOutput_waitingSlate (o : OutId) (g : Output → Output) (s : State) :
    (s.modifyOutput o g).waitingSlate = s.waitingSlate := State.putOutput_waitingSlate ..
@[simp] theorem State.modifyOutput_reads (o : OutId) (g : Output → Output) (s : State) :
    (s.modifyOutput o g).reads = s.reads := State.putOutput_reads ..
@[simp] theorem State.modifyOutput_writes (o : OutId) (g : Output → Output) (s : State) :
    (s.modifyOutput o g).writes = s.writes := State.putOutput_writes ..
@[simp] theorem State.modifyOutput_heldRead (o : OutId) (g : Output → Output) (s : State) :
    (s.modifyOutput o g).heldRead = s.heldRead := State.putOutput_heldRead ..
@[simp] theorem State.modifyOutput_heldWrite (o : OutId) (g : Output → Output) (s : State) :
    (s.modifyOutput o g).heldWrite = s.heldWrite := State.putOutput_heldWrite ..
@[simp] theorem State.modifyOutput_nextSerial (o : OutId) (g : Output → Output) (s : State) :
    (s.modifyOutput o g).nextSerial = s.nextSerial := State.putOutput_nextSerial ..
@[simp] theorem State.modifyOutput_busOut (o : OutId) (g : Output → Output) (s : State) :
    (s.modifyOutput o g).busOut = s.busOut := State.putOutput_busOut ..
@[simp] theorem State.modifyOutput_pending (o : OutId) (g : Output → Output) (s : State) :
    (s.modifyOutput o g).pending = s.pending := State.putOutput_pending ..

/-! ### setOutputCond -/

@[simp] theorem State.setOutputCond_resetting (o : OutId) (c : Conds) (s : State) :
    (s.setOutputCond o c).resetting = s.resetting := State.putOutput_resetting ..
@[simp] theorem State.setOutputCond_powerEdge (o : OutId) (c : Conds) (s : State) :
    (s.setOutputCond o c).powerEdge = s.powerEdge := State.putOutput_powerEdge ..
@[simp] theorem State.setOutputCond_resetCause (o : OutId) (c : Conds) (s : State) :
    (s.setOutputCond o c).resetCause = s.resetCause := State.putOutput_resetCause ..
@[simp] theorem State.setOutputCond_strap (o : OutId) (c : Conds) (s : State) :
    (s.setOutputCond o c).strap = s.strap := State.putOutput_strap ..
@[simp] theorem State.setOutputCond_tick (o : OutId) (c : Conds) (s : State) :
    (s.setOutputCond o c).tick = s.tick := State.putOutput_tick ..
@[simp] theorem State.setOutputCond_refA (o : OutId) (c : Conds) (s : State) :
    (s.setOutputCond o c).refA = s.refA := State.putOutput_refA ..
@[simp] theorem State.setOutputCond_refB (o : OutId) (c : Conds) (s : State) :
    (s.setOutputCond o c).refB = s.refB := State.putOutput_refB ..
@[simp] theorem State.setOutputCond_feeds (o : OutId) (c : Conds) (s : State) :
    (s.setOutputCond o c).feeds = s.feeds := State.putOutput_feeds ..
@[simp] theorem State.setOutputCond_cache (o : OutId) (c : Conds) (s : State) :
    (s.setOutputCond o c).cache = s.cache := State.putOutput_cache ..
@[simp] theorem State.setOutputCond_banks (o : OutId) (c : Conds) (s : State) :
    (s.setOutputCond o c).banks = s.banks := State.putOutput_banks ..
@[simp] theorem State.setOutputCond_cells (o : OutId) (c : Conds) (s : State) :
    (s.setOutputCond o c).cells = s.cells := State.putOutput_cells ..
@[simp] theorem State.setOutputCond_deviceMask (o : OutId) (c : Conds) (s : State) :
    (s.setOutputCond o c).deviceMask = s.deviceMask := State.putOutput_deviceMask ..
@[simp] theorem State.setOutputCond_deviceUpdates (o : OutId) (c : Conds) (s : State) :
    (s.setOutputCond o c).deviceUpdates = s.deviceUpdates := State.putOutput_deviceUpdates ..
@[simp] theorem State.setOutputCond_class1 (o : OutId) (c : Conds) (s : State) :
    (s.setOutputCond o c).class1 = s.class1 := State.putOutput_class1 ..
@[simp] theorem State.setOutputCond_class2 (o : OutId) (c : Conds) (s : State) :
    (s.setOutputCond o c).class2 = s.class2 := State.putOutput_class2 ..
@[simp] theorem State.setOutputCond_pointer (o : OutId) (c : Conds) (s : State) :
    (s.setOutputCond o c).pointer = s.pointer := State.putOutput_pointer ..
@[simp] theorem State.setOutputCond_granted (o : OutId) (c : Conds) (s : State) :
    (s.setOutputCond o c).granted = s.granted := State.putOutput_granted ..
@[simp] theorem State.setOutputCond_waitingSlate (o : OutId) (c : Conds) (s : State) :
    (s.setOutputCond o c).waitingSlate = s.waitingSlate := State.putOutput_waitingSlate ..
@[simp] theorem State.setOutputCond_reads (o : OutId) (c : Conds) (s : State) :
    (s.setOutputCond o c).reads = s.reads := State.putOutput_reads ..
@[simp] theorem State.setOutputCond_writes (o : OutId) (c : Conds) (s : State) :
    (s.setOutputCond o c).writes = s.writes := State.putOutput_writes ..
@[simp] theorem State.setOutputCond_heldRead (o : OutId) (c : Conds) (s : State) :
    (s.setOutputCond o c).heldRead = s.heldRead := State.putOutput_heldRead ..
@[simp] theorem State.setOutputCond_heldWrite (o : OutId) (c : Conds) (s : State) :
    (s.setOutputCond o c).heldWrite = s.heldWrite := State.putOutput_heldWrite ..
@[simp] theorem State.setOutputCond_nextSerial (o : OutId) (c : Conds) (s : State) :
    (s.setOutputCond o c).nextSerial = s.nextSerial := State.putOutput_nextSerial ..
@[simp] theorem State.setOutputCond_busOut (o : OutId) (c : Conds) (s : State) :
    (s.setOutputCond o c).busOut = s.busOut := State.putOutput_busOut ..
@[simp] theorem State.setOutputCond_pending (o : OutId) (c : Conds) (s : State) :
    (s.setOutputCond o c).pending = s.pending := State.putOutput_pending ..

/-! ### modifyModes -/

@[simp] theorem State.modifyModes_resetting (o : OutId) (g : Modes → Modes) (s : State) :
    (s.modifyModes o g).resetting = s.resetting := State.putOutput_resetting ..
@[simp] theorem State.modifyModes_powerEdge (o : OutId) (g : Modes → Modes) (s : State) :
    (s.modifyModes o g).powerEdge = s.powerEdge := State.putOutput_powerEdge ..
@[simp] theorem State.modifyModes_resetCause (o : OutId) (g : Modes → Modes) (s : State) :
    (s.modifyModes o g).resetCause = s.resetCause := State.putOutput_resetCause ..
@[simp] theorem State.modifyModes_strap (o : OutId) (g : Modes → Modes) (s : State) :
    (s.modifyModes o g).strap = s.strap := State.putOutput_strap ..
@[simp] theorem State.modifyModes_tick (o : OutId) (g : Modes → Modes) (s : State) :
    (s.modifyModes o g).tick = s.tick := State.putOutput_tick ..
@[simp] theorem State.modifyModes_refA (o : OutId) (g : Modes → Modes) (s : State) :
    (s.modifyModes o g).refA = s.refA := State.putOutput_refA ..
@[simp] theorem State.modifyModes_refB (o : OutId) (g : Modes → Modes) (s : State) :
    (s.modifyModes o g).refB = s.refB := State.putOutput_refB ..
@[simp] theorem State.modifyModes_feeds (o : OutId) (g : Modes → Modes) (s : State) :
    (s.modifyModes o g).feeds = s.feeds := State.putOutput_feeds ..
@[simp] theorem State.modifyModes_cache (o : OutId) (g : Modes → Modes) (s : State) :
    (s.modifyModes o g).cache = s.cache := State.putOutput_cache ..
@[simp] theorem State.modifyModes_banks (o : OutId) (g : Modes → Modes) (s : State) :
    (s.modifyModes o g).banks = s.banks := State.putOutput_banks ..
@[simp] theorem State.modifyModes_cells (o : OutId) (g : Modes → Modes) (s : State) :
    (s.modifyModes o g).cells = s.cells := State.putOutput_cells ..
@[simp] theorem State.modifyModes_deviceMask (o : OutId) (g : Modes → Modes) (s : State) :
    (s.modifyModes o g).deviceMask = s.deviceMask := State.putOutput_deviceMask ..
@[simp] theorem State.modifyModes_deviceUpdates (o : OutId) (g : Modes → Modes) (s : State) :
    (s.modifyModes o g).deviceUpdates = s.deviceUpdates := State.putOutput_deviceUpdates ..
@[simp] theorem State.modifyModes_class1 (o : OutId) (g : Modes → Modes) (s : State) :
    (s.modifyModes o g).class1 = s.class1 := State.putOutput_class1 ..
@[simp] theorem State.modifyModes_class2 (o : OutId) (g : Modes → Modes) (s : State) :
    (s.modifyModes o g).class2 = s.class2 := State.putOutput_class2 ..
@[simp] theorem State.modifyModes_pointer (o : OutId) (g : Modes → Modes) (s : State) :
    (s.modifyModes o g).pointer = s.pointer := State.putOutput_pointer ..
@[simp] theorem State.modifyModes_granted (o : OutId) (g : Modes → Modes) (s : State) :
    (s.modifyModes o g).granted = s.granted := State.putOutput_granted ..
@[simp] theorem State.modifyModes_waitingSlate (o : OutId) (g : Modes → Modes) (s : State) :
    (s.modifyModes o g).waitingSlate = s.waitingSlate := State.putOutput_waitingSlate ..
@[simp] theorem State.modifyModes_reads (o : OutId) (g : Modes → Modes) (s : State) :
    (s.modifyModes o g).reads = s.reads := State.putOutput_reads ..
@[simp] theorem State.modifyModes_writes (o : OutId) (g : Modes → Modes) (s : State) :
    (s.modifyModes o g).writes = s.writes := State.putOutput_writes ..
@[simp] theorem State.modifyModes_heldRead (o : OutId) (g : Modes → Modes) (s : State) :
    (s.modifyModes o g).heldRead = s.heldRead := State.putOutput_heldRead ..
@[simp] theorem State.modifyModes_heldWrite (o : OutId) (g : Modes → Modes) (s : State) :
    (s.modifyModes o g).heldWrite = s.heldWrite := State.putOutput_heldWrite ..
@[simp] theorem State.modifyModes_nextSerial (o : OutId) (g : Modes → Modes) (s : State) :
    (s.modifyModes o g).nextSerial = s.nextSerial := State.putOutput_nextSerial ..
@[simp] theorem State.modifyModes_busOut (o : OutId) (g : Modes → Modes) (s : State) :
    (s.modifyModes o g).busOut = s.busOut := State.putOutput_busOut ..
@[simp] theorem State.modifyModes_pending (o : OutId) (g : Modes → Modes) (s : State) :
    (s.modifyModes o g).pending = s.pending := State.putOutput_pending ..

/-! ### modifyContexts -/

@[simp] theorem State.modifyContexts_resetting (o : OutId) (g : Contexts → Contexts) (s : State) :
    (s.modifyContexts o g).resetting = s.resetting := State.putOutput_resetting ..
@[simp] theorem State.modifyContexts_powerEdge (o : OutId) (g : Contexts → Contexts) (s : State) :
    (s.modifyContexts o g).powerEdge = s.powerEdge := State.putOutput_powerEdge ..
@[simp] theorem State.modifyContexts_resetCause (o : OutId) (g : Contexts → Contexts) (s : State) :
    (s.modifyContexts o g).resetCause = s.resetCause := State.putOutput_resetCause ..
@[simp] theorem State.modifyContexts_strap (o : OutId) (g : Contexts → Contexts) (s : State) :
    (s.modifyContexts o g).strap = s.strap := State.putOutput_strap ..
@[simp] theorem State.modifyContexts_tick (o : OutId) (g : Contexts → Contexts) (s : State) :
    (s.modifyContexts o g).tick = s.tick := State.putOutput_tick ..
@[simp] theorem State.modifyContexts_refA (o : OutId) (g : Contexts → Contexts) (s : State) :
    (s.modifyContexts o g).refA = s.refA := State.putOutput_refA ..
@[simp] theorem State.modifyContexts_refB (o : OutId) (g : Contexts → Contexts) (s : State) :
    (s.modifyContexts o g).refB = s.refB := State.putOutput_refB ..
@[simp] theorem State.modifyContexts_feeds (o : OutId) (g : Contexts → Contexts) (s : State) :
    (s.modifyContexts o g).feeds = s.feeds := State.putOutput_feeds ..
@[simp] theorem State.modifyContexts_cache (o : OutId) (g : Contexts → Contexts) (s : State) :
    (s.modifyContexts o g).cache = s.cache := State.putOutput_cache ..
@[simp] theorem State.modifyContexts_banks (o : OutId) (g : Contexts → Contexts) (s : State) :
    (s.modifyContexts o g).banks = s.banks := State.putOutput_banks ..
@[simp] theorem State.modifyContexts_cells (o : OutId) (g : Contexts → Contexts) (s : State) :
    (s.modifyContexts o g).cells = s.cells := State.putOutput_cells ..
@[simp] theorem State.modifyContexts_deviceMask (o : OutId) (g : Contexts → Contexts) (s : State) :
    (s.modifyContexts o g).deviceMask = s.deviceMask := State.putOutput_deviceMask ..
@[simp] theorem State.modifyContexts_deviceUpdates (o : OutId) (g : Contexts → Contexts) (s : State) :
    (s.modifyContexts o g).deviceUpdates = s.deviceUpdates := State.putOutput_deviceUpdates ..
@[simp] theorem State.modifyContexts_class1 (o : OutId) (g : Contexts → Contexts) (s : State) :
    (s.modifyContexts o g).class1 = s.class1 := State.putOutput_class1 ..
@[simp] theorem State.modifyContexts_class2 (o : OutId) (g : Contexts → Contexts) (s : State) :
    (s.modifyContexts o g).class2 = s.class2 := State.putOutput_class2 ..
@[simp] theorem State.modifyContexts_pointer (o : OutId) (g : Contexts → Contexts) (s : State) :
    (s.modifyContexts o g).pointer = s.pointer := State.putOutput_pointer ..
@[simp] theorem State.modifyContexts_granted (o : OutId) (g : Contexts → Contexts) (s : State) :
    (s.modifyContexts o g).granted = s.granted := State.putOutput_granted ..
@[simp] theorem State.modifyContexts_waitingSlate (o : OutId) (g : Contexts → Contexts) (s : State) :
    (s.modifyContexts o g).waitingSlate = s.waitingSlate := State.putOutput_waitingSlate ..
@[simp] theorem State.modifyContexts_reads (o : OutId) (g : Contexts → Contexts) (s : State) :
    (s.modifyContexts o g).reads = s.reads := State.putOutput_reads ..
@[simp] theorem State.modifyContexts_writes (o : OutId) (g : Contexts → Contexts) (s : State) :
    (s.modifyContexts o g).writes = s.writes := State.putOutput_writes ..
@[simp] theorem State.modifyContexts_heldRead (o : OutId) (g : Contexts → Contexts) (s : State) :
    (s.modifyContexts o g).heldRead = s.heldRead := State.putOutput_heldRead ..
@[simp] theorem State.modifyContexts_heldWrite (o : OutId) (g : Contexts → Contexts) (s : State) :
    (s.modifyContexts o g).heldWrite = s.heldWrite := State.putOutput_heldWrite ..
@[simp] theorem State.modifyContexts_nextSerial (o : OutId) (g : Contexts → Contexts) (s : State) :
    (s.modifyContexts o g).nextSerial = s.nextSerial := State.putOutput_nextSerial ..
@[simp] theorem State.modifyContexts_busOut (o : OutId) (g : Contexts → Contexts) (s : State) :
    (s.modifyContexts o g).busOut = s.busOut := State.putOutput_busOut ..
@[simp] theorem State.modifyContexts_pending (o : OutId) (g : Contexts → Contexts) (s : State) :
    (s.modifyContexts o g).pending = s.pending := State.putOutput_pending ..

/-! ### modifyBuilder -/

@[simp] theorem State.modifyBuilder_resetting (o : OutId) (g : LineBuilder → LineBuilder) (s : State) :
    (s.modifyBuilder o g).resetting = s.resetting := State.putOutput_resetting ..
@[simp] theorem State.modifyBuilder_powerEdge (o : OutId) (g : LineBuilder → LineBuilder) (s : State) :
    (s.modifyBuilder o g).powerEdge = s.powerEdge := State.putOutput_powerEdge ..
@[simp] theorem State.modifyBuilder_resetCause (o : OutId) (g : LineBuilder → LineBuilder) (s : State) :
    (s.modifyBuilder o g).resetCause = s.resetCause := State.putOutput_resetCause ..
@[simp] theorem State.modifyBuilder_strap (o : OutId) (g : LineBuilder → LineBuilder) (s : State) :
    (s.modifyBuilder o g).strap = s.strap := State.putOutput_strap ..
@[simp] theorem State.modifyBuilder_tick (o : OutId) (g : LineBuilder → LineBuilder) (s : State) :
    (s.modifyBuilder o g).tick = s.tick := State.putOutput_tick ..
@[simp] theorem State.modifyBuilder_refA (o : OutId) (g : LineBuilder → LineBuilder) (s : State) :
    (s.modifyBuilder o g).refA = s.refA := State.putOutput_refA ..
@[simp] theorem State.modifyBuilder_refB (o : OutId) (g : LineBuilder → LineBuilder) (s : State) :
    (s.modifyBuilder o g).refB = s.refB := State.putOutput_refB ..
@[simp] theorem State.modifyBuilder_feeds (o : OutId) (g : LineBuilder → LineBuilder) (s : State) :
    (s.modifyBuilder o g).feeds = s.feeds := State.putOutput_feeds ..
@[simp] theorem State.modifyBuilder_cache (o : OutId) (g : LineBuilder → LineBuilder) (s : State) :
    (s.modifyBuilder o g).cache = s.cache := State.putOutput_cache ..
@[simp] theorem State.modifyBuilder_banks (o : OutId) (g : LineBuilder → LineBuilder) (s : State) :
    (s.modifyBuilder o g).banks = s.banks := State.putOutput_banks ..
@[simp] theorem State.modifyBuilder_cells (o : OutId) (g : LineBuilder → LineBuilder) (s : State) :
    (s.modifyBuilder o g).cells = s.cells := State.putOutput_cells ..
@[simp] theorem State.modifyBuilder_deviceMask (o : OutId) (g : LineBuilder → LineBuilder) (s : State) :
    (s.modifyBuilder o g).deviceMask = s.deviceMask := State.putOutput_deviceMask ..
@[simp] theorem State.modifyBuilder_deviceUpdates (o : OutId) (g : LineBuilder → LineBuilder) (s : State) :
    (s.modifyBuilder o g).deviceUpdates = s.deviceUpdates := State.putOutput_deviceUpdates ..
@[simp] theorem State.modifyBuilder_class1 (o : OutId) (g : LineBuilder → LineBuilder) (s : State) :
    (s.modifyBuilder o g).class1 = s.class1 := State.putOutput_class1 ..
@[simp] theorem State.modifyBuilder_class2 (o : OutId) (g : LineBuilder → LineBuilder) (s : State) :
    (s.modifyBuilder o g).class2 = s.class2 := State.putOutput_class2 ..
@[simp] theorem State.modifyBuilder_pointer (o : OutId) (g : LineBuilder → LineBuilder) (s : State) :
    (s.modifyBuilder o g).pointer = s.pointer := State.putOutput_pointer ..
@[simp] theorem State.modifyBuilder_granted (o : OutId) (g : LineBuilder → LineBuilder) (s : State) :
    (s.modifyBuilder o g).granted = s.granted := State.putOutput_granted ..
@[simp] theorem State.modifyBuilder_waitingSlate (o : OutId) (g : LineBuilder → LineBuilder) (s : State) :
    (s.modifyBuilder o g).waitingSlate = s.waitingSlate := State.putOutput_waitingSlate ..
@[simp] theorem State.modifyBuilder_reads (o : OutId) (g : LineBuilder → LineBuilder) (s : State) :
    (s.modifyBuilder o g).reads = s.reads := State.putOutput_reads ..
@[simp] theorem State.modifyBuilder_writes (o : OutId) (g : LineBuilder → LineBuilder) (s : State) :
    (s.modifyBuilder o g).writes = s.writes := State.putOutput_writes ..
@[simp] theorem State.modifyBuilder_heldRead (o : OutId) (g : LineBuilder → LineBuilder) (s : State) :
    (s.modifyBuilder o g).heldRead = s.heldRead := State.putOutput_heldRead ..
@[simp] theorem State.modifyBuilder_heldWrite (o : OutId) (g : LineBuilder → LineBuilder) (s : State) :
    (s.modifyBuilder o g).heldWrite = s.heldWrite := State.putOutput_heldWrite ..
@[simp] theorem State.modifyBuilder_nextSerial (o : OutId) (g : LineBuilder → LineBuilder) (s : State) :
    (s.modifyBuilder o g).nextSerial = s.nextSerial := State.putOutput_nextSerial ..
@[simp] theorem State.modifyBuilder_busOut (o : OutId) (g : LineBuilder → LineBuilder) (s : State) :
    (s.modifyBuilder o g).busOut = s.busOut := State.putOutput_busOut ..
@[simp] theorem State.modifyBuilder_pending (o : OutId) (g : LineBuilder → LineBuilder) (s : State) :
    (s.modifyBuilder o g).pending = s.pending := State.putOutput_pending ..

/-! ### putCell -/

@[simp] theorem State.putCell_resetting (c : CellId) (x : Cell) (s : State) :
    (s.putCell c x).resetting = s.resetting := by
  unfold State.putCell; dsimp only; split
  · rfl
  · exact State.mark_resetting ..
@[simp] theorem State.putCell_powerEdge (c : CellId) (x : Cell) (s : State) :
    (s.putCell c x).powerEdge = s.powerEdge := by
  unfold State.putCell; dsimp only; split
  · rfl
  · exact State.mark_powerEdge ..
@[simp] theorem State.putCell_resetCause (c : CellId) (x : Cell) (s : State) :
    (s.putCell c x).resetCause = s.resetCause := by
  unfold State.putCell; dsimp only; split
  · rfl
  · exact State.mark_resetCause ..
@[simp] theorem State.putCell_strap (c : CellId) (x : Cell) (s : State) :
    (s.putCell c x).strap = s.strap := by
  unfold State.putCell; dsimp only; split
  · rfl
  · exact State.mark_strap ..
@[simp] theorem State.putCell_tick (c : CellId) (x : Cell) (s : State) :
    (s.putCell c x).tick = s.tick := by
  unfold State.putCell; dsimp only; split
  · rfl
  · exact State.mark_tick ..
@[simp] theorem State.putCell_refA (c : CellId) (x : Cell) (s : State) :
    (s.putCell c x).refA = s.refA := by
  unfold State.putCell; dsimp only; split
  · rfl
  · exact State.mark_refA ..
@[simp] theorem State.putCell_refB (c : CellId) (x : Cell) (s : State) :
    (s.putCell c x).refB = s.refB := by
  unfold State.putCell; dsimp only; split
  · rfl
  · exact State.mark_refB ..
@[simp] theorem State.putCell_feeds (c : CellId) (x : Cell) (s : State) :
    (s.putCell c x).feeds = s.feeds := by
  unfold State.putCell; dsimp only; split
  · rfl
  · exact State.mark_feeds ..
@[simp] theorem State.putCell_outputs (c : CellId) (x : Cell) (s : State) :
    (s.putCell c x).outputs = s.outputs := by
  unfold State.putCell; dsimp only; split
  · rfl
  · exact State.mark_outputs ..
@[simp] theorem State.putCell_cache (c : CellId) (x : Cell) (s : State) :
    (s.putCell c x).cache = s.cache := by
  unfold State.putCell; dsimp only; split
  · rfl
  · exact State.mark_cache ..
@[simp] theorem State.putCell_banks (c : CellId) (x : Cell) (s : State) :
    (s.putCell c x).banks = s.banks := by
  unfold State.putCell; dsimp only; split
  · rfl
  · exact State.mark_banks ..
@[simp] theorem State.putCell_deviceWord (c : CellId) (x : Cell) (s : State) :
    (s.putCell c x).deviceWord = s.deviceWord := by
  unfold State.putCell; dsimp only; split
  · rfl
  · exact State.mark_deviceWord ..
@[simp] theorem State.putCell_deviceMask (c : CellId) (x : Cell) (s : State) :
    (s.putCell c x).deviceMask = s.deviceMask := by
  unfold State.putCell; dsimp only; split
  · rfl
  · exact State.mark_deviceMask ..
@[simp] theorem State.putCell_deviceUpdates (c : CellId) (x : Cell) (s : State) :
    (s.putCell c x).deviceUpdates = s.deviceUpdates := by
  unfold State.putCell; dsimp only; split
  · rfl
  · exact State.mark_deviceUpdates ..
@[simp] theorem State.putCell_notice (c : CellId) (x : Cell) (s : State) :
    (s.putCell c x).notice = s.notice := by
  unfold State.putCell; dsimp only; split
  · rfl
  · exact State.mark_notice ..
@[simp] theorem State.putCell_class1 (c : CellId) (x : Cell) (s : State) :
    (s.putCell c x).class1 = s.class1 := by
  unfold State.putCell; dsimp only; split
  · rfl
  · exact State.mark_class1 ..
@[simp] theorem State.putCell_class2 (c : CellId) (x : Cell) (s : State) :
    (s.putCell c x).class2 = s.class2 := by
  unfold State.putCell; dsimp only; split
  · rfl
  · exact State.mark_class2 ..
@[simp] theorem State.putCell_pointer (c : CellId) (x : Cell) (s : State) :
    (s.putCell c x).pointer = s.pointer := by
  unfold State.putCell; dsimp only; split
  · rfl
  · exact State.mark_pointer ..
@[simp] theorem State.putCell_granted (c : CellId) (x : Cell) (s : State) :
    (s.putCell c x).granted = s.granted := by
  unfold State.putCell; dsimp only; split
  · rfl
  · exact State.mark_granted ..
@[simp] theorem State.putCell_waitingSlate (c : CellId) (x : Cell) (s : State) :
    (s.putCell c x).waitingSlate = s.waitingSlate := by
  unfold State.putCell; dsimp only; split
  · rfl
  · exact State.mark_waitingSlate ..
@[simp] theorem State.putCell_reads (c : CellId) (x : Cell) (s : State) :
    (s.putCell c x).reads = s.reads := by
  unfold State.putCell; dsimp only; split
  · rfl
  · exact State.mark_reads ..
@[simp] theorem State.putCell_writes (c : CellId) (x : Cell) (s : State) :
    (s.putCell c x).writes = s.writes := by
  unfold State.putCell; dsimp only; split
  · rfl
  · exact State.mark_writes ..
@[simp] theorem State.putCell_heldRead (c : CellId) (x : Cell) (s : State) :
    (s.putCell c x).heldRead = s.heldRead := by
  unfold State.putCell; dsimp only; split
  · rfl
  · exact State.mark_heldRead ..
@[simp] theorem State.putCell_heldWrite (c : CellId) (x : Cell) (s : State) :
    (s.putCell c x).heldWrite = s.heldWrite := by
  unfold State.putCell; dsimp only; split
  · rfl
  · exact State.mark_heldWrite ..
@[simp] theorem State.putCell_nextSerial (c : CellId) (x : Cell) (s : State) :
    (s.putCell c x).nextSerial = s.nextSerial := by
  unfold State.putCell; dsimp only; split
  · rfl
  · exact State.mark_nextSerial ..
@[simp] theorem State.putCell_busOut (c : CellId) (x : Cell) (s : State) :
    (s.putCell c x).busOut = s.busOut := by
  unfold State.putCell; dsimp only; split
  · rfl
  · exact State.mark_busOut ..
@[simp] theorem State.putCell_pending (c : CellId) (x : Cell) (s : State) :
    (s.putCell c x).pending = s.pending := by
  unfold State.putCell; dsimp only; split
  · rfl
  · exact State.mark_pending ..

/-! ### openRead -/

@[simp] theorem State.openRead_resetting (b : Burst) (d : List ReadBeat) (y : Bool) (s : State) :
    (s.openRead b d y).resetting = s.resetting := rfl
@[simp] theorem State.openRead_powerEdge (b : Burst) (d : List ReadBeat) (y : Bool) (s : State) :
    (s.openRead b d y).powerEdge = s.powerEdge := rfl
@[simp] theorem State.openRead_resetCause (b : Burst) (d : List ReadBeat) (y : Bool) (s : State) :
    (s.openRead b d y).resetCause = s.resetCause := rfl
@[simp] theorem State.openRead_strap (b : Burst) (d : List ReadBeat) (y : Bool) (s : State) :
    (s.openRead b d y).strap = s.strap := rfl
@[simp] theorem State.openRead_tick (b : Burst) (d : List ReadBeat) (y : Bool) (s : State) :
    (s.openRead b d y).tick = s.tick := rfl
@[simp] theorem State.openRead_refA (b : Burst) (d : List ReadBeat) (y : Bool) (s : State) :
    (s.openRead b d y).refA = s.refA := rfl
@[simp] theorem State.openRead_refB (b : Burst) (d : List ReadBeat) (y : Bool) (s : State) :
    (s.openRead b d y).refB = s.refB := rfl
@[simp] theorem State.openRead_feeds (b : Burst) (d : List ReadBeat) (y : Bool) (s : State) :
    (s.openRead b d y).feeds = s.feeds := rfl
@[simp] theorem State.openRead_outputs (b : Burst) (d : List ReadBeat) (y : Bool) (s : State) :
    (s.openRead b d y).outputs = s.outputs := rfl
@[simp] theorem State.openRead_cache (b : Burst) (d : List ReadBeat) (y : Bool) (s : State) :
    (s.openRead b d y).cache = s.cache := rfl
@[simp] theorem State.openRead_banks (b : Burst) (d : List ReadBeat) (y : Bool) (s : State) :
    (s.openRead b d y).banks = s.banks := rfl
@[simp] theorem State.openRead_cells (b : Burst) (d : List ReadBeat) (y : Bool) (s : State) :
    (s.openRead b d y).cells = s.cells := rfl
@[simp] theorem State.openRead_deviceWord (b : Burst) (d : List ReadBeat) (y : Bool) (s : State) :
    (s.openRead b d y).deviceWord = s.deviceWord := rfl
@[simp] theorem State.openRead_deviceMask (b : Burst) (d : List ReadBeat) (y : Bool) (s : State) :
    (s.openRead b d y).deviceMask = s.deviceMask := rfl
@[simp] theorem State.openRead_deviceUpdates (b : Burst) (d : List ReadBeat) (y : Bool) (s : State) :
    (s.openRead b d y).deviceUpdates = s.deviceUpdates := rfl
@[simp] theorem State.openRead_notice (b : Burst) (d : List ReadBeat) (y : Bool) (s : State) :
    (s.openRead b d y).notice = s.notice := rfl
@[simp] theorem State.openRead_class1 (b : Burst) (d : List ReadBeat) (y : Bool) (s : State) :
    (s.openRead b d y).class1 = s.class1 := rfl
@[simp] theorem State.openRead_class2 (b : Burst) (d : List ReadBeat) (y : Bool) (s : State) :
    (s.openRead b d y).class2 = s.class2 := rfl
@[simp] theorem State.openRead_class3 (b : Burst) (d : List ReadBeat) (y : Bool) (s : State) :
    (s.openRead b d y).class3 = s.class3 := rfl
@[simp] theorem State.openRead_pointer (b : Burst) (d : List ReadBeat) (y : Bool) (s : State) :
    (s.openRead b d y).pointer = s.pointer := rfl
@[simp] theorem State.openRead_granted (b : Burst) (d : List ReadBeat) (y : Bool) (s : State) :
    (s.openRead b d y).granted = s.granted := rfl
@[simp] theorem State.openRead_waitingSlate (b : Burst) (d : List ReadBeat) (y : Bool) (s : State) :
    (s.openRead b d y).waitingSlate = s.waitingSlate := rfl
@[simp] theorem State.openRead_writes (b : Burst) (d : List ReadBeat) (y : Bool) (s : State) :
    (s.openRead b d y).writes = s.writes := rfl
@[simp] theorem State.openRead_heldRead (b : Burst) (d : List ReadBeat) (y : Bool) (s : State) :
    (s.openRead b d y).heldRead = s.heldRead := rfl
@[simp] theorem State.openRead_heldWrite (b : Burst) (d : List ReadBeat) (y : Bool) (s : State) :
    (s.openRead b d y).heldWrite = s.heldWrite := rfl
@[simp] theorem State.openRead_busOut (b : Burst) (d : List ReadBeat) (y : Bool) (s : State) :
    (s.openRead b d y).busOut = s.busOut := rfl
@[simp] theorem State.openRead_pending (b : Burst) (d : List ReadBeat) (y : Bool) (s : State) :
    (s.openRead b d y).pending = s.pending := rfl

/-! ### openWrite -/

@[simp] theorem State.openWrite_resetting (b : Burst) (y : Option Resp) (s : State) :
    (s.openWrite b y).resetting = s.resetting := rfl
@[simp] theorem State.openWrite_powerEdge (b : Burst) (y : Option Resp) (s : State) :
    (s.openWrite b y).powerEdge = s.powerEdge := rfl
@[simp] theorem State.openWrite_resetCause (b : Burst) (y : Option Resp) (s : State) :
    (s.openWrite b y).resetCause = s.resetCause := rfl
@[simp] theorem State.openWrite_strap (b : Burst) (y : Option Resp) (s : State) :
    (s.openWrite b y).strap = s.strap := rfl
@[simp] theorem State.openWrite_tick (b : Burst) (y : Option Resp) (s : State) :
    (s.openWrite b y).tick = s.tick := rfl
@[simp] theorem State.openWrite_refA (b : Burst) (y : Option Resp) (s : State) :
    (s.openWrite b y).refA = s.refA := rfl
@[simp] theorem State.openWrite_refB (b : Burst) (y : Option Resp) (s : State) :
    (s.openWrite b y).refB = s.refB := rfl
@[simp] theorem State.openWrite_feeds (b : Burst) (y : Option Resp) (s : State) :
    (s.openWrite b y).feeds = s.feeds := rfl
@[simp] theorem State.openWrite_outputs (b : Burst) (y : Option Resp) (s : State) :
    (s.openWrite b y).outputs = s.outputs := rfl
@[simp] theorem State.openWrite_cache (b : Burst) (y : Option Resp) (s : State) :
    (s.openWrite b y).cache = s.cache := rfl
@[simp] theorem State.openWrite_banks (b : Burst) (y : Option Resp) (s : State) :
    (s.openWrite b y).banks = s.banks := rfl
@[simp] theorem State.openWrite_cells (b : Burst) (y : Option Resp) (s : State) :
    (s.openWrite b y).cells = s.cells := rfl
@[simp] theorem State.openWrite_deviceWord (b : Burst) (y : Option Resp) (s : State) :
    (s.openWrite b y).deviceWord = s.deviceWord := rfl
@[simp] theorem State.openWrite_deviceMask (b : Burst) (y : Option Resp) (s : State) :
    (s.openWrite b y).deviceMask = s.deviceMask := rfl
@[simp] theorem State.openWrite_deviceUpdates (b : Burst) (y : Option Resp) (s : State) :
    (s.openWrite b y).deviceUpdates = s.deviceUpdates := rfl
@[simp] theorem State.openWrite_notice (b : Burst) (y : Option Resp) (s : State) :
    (s.openWrite b y).notice = s.notice := rfl
@[simp] theorem State.openWrite_class1 (b : Burst) (y : Option Resp) (s : State) :
    (s.openWrite b y).class1 = s.class1 := rfl
@[simp] theorem State.openWrite_class2 (b : Burst) (y : Option Resp) (s : State) :
    (s.openWrite b y).class2 = s.class2 := rfl
@[simp] theorem State.openWrite_class3 (b : Burst) (y : Option Resp) (s : State) :
    (s.openWrite b y).class3 = s.class3 := rfl
@[simp] theorem State.openWrite_pointer (b : Burst) (y : Option Resp) (s : State) :
    (s.openWrite b y).pointer = s.pointer := rfl
@[simp] theorem State.openWrite_granted (b : Burst) (y : Option Resp) (s : State) :
    (s.openWrite b y).granted = s.granted := rfl
@[simp] theorem State.openWrite_waitingSlate (b : Burst) (y : Option Resp) (s : State) :
    (s.openWrite b y).waitingSlate = s.waitingSlate := rfl
@[simp] theorem State.openWrite_reads (b : Burst) (y : Option Resp) (s : State) :
    (s.openWrite b y).reads = s.reads := rfl
@[simp] theorem State.openWrite_heldRead (b : Burst) (y : Option Resp) (s : State) :
    (s.openWrite b y).heldRead = s.heldRead := rfl
@[simp] theorem State.openWrite_heldWrite (b : Burst) (y : Option Resp) (s : State) :
    (s.openWrite b y).heldWrite = s.heldWrite := rfl
@[simp] theorem State.openWrite_busOut (b : Burst) (y : Option Resp) (s : State) :
    (s.openWrite b y).busOut = s.busOut := rfl
@[simp] theorem State.openWrite_pending (b : Burst) (y : Option Resp) (s : State) :
    (s.openWrite b y).pending = s.pending := rfl

/-! ### openBurst -/

@[simp] theorem State.openBurst_resetting (b : Burst) (s : State) :
    (s.openBurst b).resetting = s.resetting := by unfold State.openBurst; split <;> rfl
@[simp] theorem State.openBurst_powerEdge (b : Burst) (s : State) :
    (s.openBurst b).powerEdge = s.powerEdge := by unfold State.openBurst; split <;> rfl
@[simp] theorem State.openBurst_resetCause (b : Burst) (s : State) :
    (s.openBurst b).resetCause = s.resetCause := by unfold State.openBurst; split <;> rfl
@[simp] theorem State.openBurst_strap (b : Burst) (s : State) :
    (s.openBurst b).strap = s.strap := by unfold State.openBurst; split <;> rfl
@[simp] theorem State.openBurst_tick (b : Burst) (s : State) :
    (s.openBurst b).tick = s.tick := by unfold State.openBurst; split <;> rfl
@[simp] theorem State.openBurst_refA (b : Burst) (s : State) :
    (s.openBurst b).refA = s.refA := by unfold State.openBurst; split <;> rfl
@[simp] theorem State.openBurst_refB (b : Burst) (s : State) :
    (s.openBurst b).refB = s.refB := by unfold State.openBurst; split <;> rfl
@[simp] theorem State.openBurst_feeds (b : Burst) (s : State) :
    (s.openBurst b).feeds = s.feeds := by unfold State.openBurst; split <;> rfl
@[simp] theorem State.openBurst_outputs (b : Burst) (s : State) :
    (s.openBurst b).outputs = s.outputs := by unfold State.openBurst; split <;> rfl
@[simp] theorem State.openBurst_cache (b : Burst) (s : State) :
    (s.openBurst b).cache = s.cache := by unfold State.openBurst; split <;> rfl
@[simp] theorem State.openBurst_banks (b : Burst) (s : State) :
    (s.openBurst b).banks = s.banks := by unfold State.openBurst; split <;> rfl
@[simp] theorem State.openBurst_cells (b : Burst) (s : State) :
    (s.openBurst b).cells = s.cells := by unfold State.openBurst; split <;> rfl
@[simp] theorem State.openBurst_deviceWord (b : Burst) (s : State) :
    (s.openBurst b).deviceWord = s.deviceWord := by unfold State.openBurst; split <;> rfl
@[simp] theorem State.openBurst_deviceMask (b : Burst) (s : State) :
    (s.openBurst b).deviceMask = s.deviceMask := by unfold State.openBurst; split <;> rfl
@[simp] theorem State.openBurst_deviceUpdates (b : Burst) (s : State) :
    (s.openBurst b).deviceUpdates = s.deviceUpdates := by unfold State.openBurst; split <;> rfl
@[simp] theorem State.openBurst_notice (b : Burst) (s : State) :
    (s.openBurst b).notice = s.notice := by unfold State.openBurst; split <;> rfl
@[simp] theorem State.openBurst_class1 (b : Burst) (s : State) :
    (s.openBurst b).class1 = s.class1 := by unfold State.openBurst; split <;> rfl
@[simp] theorem State.openBurst_class2 (b : Burst) (s : State) :
    (s.openBurst b).class2 = s.class2 := by unfold State.openBurst; split <;> rfl
@[simp] theorem State.openBurst_class3 (b : Burst) (s : State) :
    (s.openBurst b).class3 = s.class3 := by unfold State.openBurst; split <;> rfl
@[simp] theorem State.openBurst_pointer (b : Burst) (s : State) :
    (s.openBurst b).pointer = s.pointer := by unfold State.openBurst; split <;> rfl
@[simp] theorem State.openBurst_granted (b : Burst) (s : State) :
    (s.openBurst b).granted = s.granted := by unfold State.openBurst; split <;> rfl
@[simp] theorem State.openBurst_waitingSlate (b : Burst) (s : State) :
    (s.openBurst b).waitingSlate = s.waitingSlate := by unfold State.openBurst; split <;> rfl
@[simp] theorem State.openBurst_heldRead (b : Burst) (s : State) :
    (s.openBurst b).heldRead = s.heldRead := by unfold State.openBurst; split <;> rfl
@[simp] theorem State.openBurst_heldWrite (b : Burst) (s : State) :
    (s.openBurst b).heldWrite = s.heldWrite := by unfold State.openBurst; split <;> rfl
@[simp] theorem State.openBurst_busOut (b : Burst) (s : State) :
    (s.openBurst b).busOut = s.busOut := by unfold State.openBurst; split <;> rfl
@[simp] theorem State.openBurst_pending (b : Burst) (s : State) :
    (s.openBurst b).pending = s.pending := by unfold State.openBurst; split <;> rfl

/-! ### forward -/

@[simp] theorem State.forward_resetting (b d : Burst) (k : BusKind) (l m : List CellId) (s : State) :
    (s.forward b d k l m).resetting = s.resetting := State.openBurst_resetting ..
@[simp] theorem State.forward_powerEdge (b d : Burst) (k : BusKind) (l m : List CellId) (s : State) :
    (s.forward b d k l m).powerEdge = s.powerEdge := State.openBurst_powerEdge ..
@[simp] theorem State.forward_resetCause (b d : Burst) (k : BusKind) (l m : List CellId) (s : State) :
    (s.forward b d k l m).resetCause = s.resetCause := State.openBurst_resetCause ..
@[simp] theorem State.forward_strap (b d : Burst) (k : BusKind) (l m : List CellId) (s : State) :
    (s.forward b d k l m).strap = s.strap := State.openBurst_strap ..
@[simp] theorem State.forward_tick (b d : Burst) (k : BusKind) (l m : List CellId) (s : State) :
    (s.forward b d k l m).tick = s.tick := State.openBurst_tick ..
@[simp] theorem State.forward_refA (b d : Burst) (k : BusKind) (l m : List CellId) (s : State) :
    (s.forward b d k l m).refA = s.refA := State.openBurst_refA ..
@[simp] theorem State.forward_refB (b d : Burst) (k : BusKind) (l m : List CellId) (s : State) :
    (s.forward b d k l m).refB = s.refB := State.openBurst_refB ..
@[simp] theorem State.forward_feeds (b d : Burst) (k : BusKind) (l m : List CellId) (s : State) :
    (s.forward b d k l m).feeds = s.feeds := State.openBurst_feeds ..
@[simp] theorem State.forward_outputs (b d : Burst) (k : BusKind) (l m : List CellId) (s : State) :
    (s.forward b d k l m).outputs = s.outputs := State.openBurst_outputs ..
@[simp] theorem State.forward_cache (b d : Burst) (k : BusKind) (l m : List CellId) (s : State) :
    (s.forward b d k l m).cache = s.cache := State.openBurst_cache ..
@[simp] theorem State.forward_banks (b d : Burst) (k : BusKind) (l m : List CellId) (s : State) :
    (s.forward b d k l m).banks = s.banks := State.openBurst_banks ..
@[simp] theorem State.forward_cells (b d : Burst) (k : BusKind) (l m : List CellId) (s : State) :
    (s.forward b d k l m).cells = s.cells := State.openBurst_cells ..
@[simp] theorem State.forward_deviceWord (b d : Burst) (k : BusKind) (l m : List CellId) (s : State) :
    (s.forward b d k l m).deviceWord = s.deviceWord := State.openBurst_deviceWord ..
@[simp] theorem State.forward_deviceMask (b d : Burst) (k : BusKind) (l m : List CellId) (s : State) :
    (s.forward b d k l m).deviceMask = s.deviceMask := State.openBurst_deviceMask ..
@[simp] theorem State.forward_deviceUpdates (b d : Burst) (k : BusKind) (l m : List CellId) (s : State) :
    (s.forward b d k l m).deviceUpdates = s.deviceUpdates := State.openBurst_deviceUpdates ..
@[simp] theorem State.forward_notice (b d : Burst) (k : BusKind) (l m : List CellId) (s : State) :
    (s.forward b d k l m).notice = s.notice := State.openBurst_notice ..
@[simp] theorem State.forward_class1 (b d : Burst) (k : BusKind) (l m : List CellId) (s : State) :
    (s.forward b d k l m).class1 = s.class1 := State.openBurst_class1 ..
@[simp] theorem State.forward_class3 (b d : Burst) (k : BusKind) (l m : List CellId) (s : State) :
    (s.forward b d k l m).class3 = s.class3 := State.openBurst_class3 ..
@[simp] theorem State.forward_pointer (b d : Burst) (k : BusKind) (l m : List CellId) (s : State) :
    (s.forward b d k l m).pointer = s.pointer := State.openBurst_pointer ..
@[simp] theorem State.forward_granted (b d : Burst) (k : BusKind) (l m : List CellId) (s : State) :
    (s.forward b d k l m).granted = s.granted := State.openBurst_granted ..
@[simp] theorem State.forward_waitingSlate (b d : Burst) (k : BusKind) (l m : List CellId) (s : State) :
    (s.forward b d k l m).waitingSlate = s.waitingSlate := State.openBurst_waitingSlate ..
@[simp] theorem State.forward_heldRead (b d : Burst) (k : BusKind) (l m : List CellId) (s : State) :
    (s.forward b d k l m).heldRead = s.heldRead := State.openBurst_heldRead ..
@[simp] theorem State.forward_heldWrite (b d : Burst) (k : BusKind) (l m : List CellId) (s : State) :
    (s.forward b d k l m).heldWrite = s.heldWrite := State.openBurst_heldWrite ..
@[simp] theorem State.forward_busOut (b d : Burst) (k : BusKind) (l m : List CellId) (s : State) :
    (s.forward b d k l m).busOut = s.busOut := State.openBurst_busOut ..
@[simp] theorem State.forward_pending (b d : Burst) (k : BusKind) (l m : List CellId) (s : State) :
    (s.forward b d k l m).pending = s.pending := State.openBurst_pending ..

/-! ### answerRead -/

@[simp] theorem State.answerRead_resetting (n : Nat) (d : List ReadBeat) (s : State) :
    (s.answerRead n d).resetting = s.resetting := rfl
@[simp] theorem State.answerRead_powerEdge (n : Nat) (d : List ReadBeat) (s : State) :
    (s.answerRead n d).powerEdge = s.powerEdge := rfl
@[simp] theorem State.answerRead_resetCause (n : Nat) (d : List ReadBeat) (s : State) :
    (s.answerRead n d).resetCause = s.resetCause := rfl
@[simp] theorem State.answerRead_strap (n : Nat) (d : List ReadBeat) (s : State) :
    (s.answerRead n d).strap = s.strap := rfl
@[simp] theorem State.answerRead_tick (n : Nat) (d : List ReadBeat) (s : State) :
    (s.answerRead n d).tick = s.tick := rfl
@[simp] theorem State.answerRead_refA (n : Nat) (d : List ReadBeat) (s : State) :
    (s.answerRead n d).refA = s.refA := rfl
@[simp] theorem State.answerRead_refB (n : Nat) (d : List ReadBeat) (s : State) :
    (s.answerRead n d).refB = s.refB := rfl
@[simp] theorem State.answerRead_feeds (n : Nat) (d : List ReadBeat) (s : State) :
    (s.answerRead n d).feeds = s.feeds := rfl
@[simp] theorem State.answerRead_outputs (n : Nat) (d : List ReadBeat) (s : State) :
    (s.answerRead n d).outputs = s.outputs := rfl
@[simp] theorem State.answerRead_cache (n : Nat) (d : List ReadBeat) (s : State) :
    (s.answerRead n d).cache = s.cache := rfl
@[simp] theorem State.answerRead_banks (n : Nat) (d : List ReadBeat) (s : State) :
    (s.answerRead n d).banks = s.banks := rfl
@[simp] theorem State.answerRead_cells (n : Nat) (d : List ReadBeat) (s : State) :
    (s.answerRead n d).cells = s.cells := rfl
@[simp] theorem State.answerRead_deviceWord (n : Nat) (d : List ReadBeat) (s : State) :
    (s.answerRead n d).deviceWord = s.deviceWord := rfl
@[simp] theorem State.answerRead_deviceMask (n : Nat) (d : List ReadBeat) (s : State) :
    (s.answerRead n d).deviceMask = s.deviceMask := rfl
@[simp] theorem State.answerRead_deviceUpdates (n : Nat) (d : List ReadBeat) (s : State) :
    (s.answerRead n d).deviceUpdates = s.deviceUpdates := rfl
@[simp] theorem State.answerRead_notice (n : Nat) (d : List ReadBeat) (s : State) :
    (s.answerRead n d).notice = s.notice := rfl
@[simp] theorem State.answerRead_class1 (n : Nat) (d : List ReadBeat) (s : State) :
    (s.answerRead n d).class1 = s.class1 := rfl
@[simp] theorem State.answerRead_class2 (n : Nat) (d : List ReadBeat) (s : State) :
    (s.answerRead n d).class2 = s.class2 := rfl
@[simp] theorem State.answerRead_class3 (n : Nat) (d : List ReadBeat) (s : State) :
    (s.answerRead n d).class3 = s.class3 := rfl
@[simp] theorem State.answerRead_pointer (n : Nat) (d : List ReadBeat) (s : State) :
    (s.answerRead n d).pointer = s.pointer := rfl
@[simp] theorem State.answerRead_granted (n : Nat) (d : List ReadBeat) (s : State) :
    (s.answerRead n d).granted = s.granted := rfl
@[simp] theorem State.answerRead_waitingSlate (n : Nat) (d : List ReadBeat) (s : State) :
    (s.answerRead n d).waitingSlate = s.waitingSlate := rfl
@[simp] theorem State.answerRead_writes (n : Nat) (d : List ReadBeat) (s : State) :
    (s.answerRead n d).writes = s.writes := rfl
@[simp] theorem State.answerRead_heldRead (n : Nat) (d : List ReadBeat) (s : State) :
    (s.answerRead n d).heldRead = s.heldRead := rfl
@[simp] theorem State.answerRead_heldWrite (n : Nat) (d : List ReadBeat) (s : State) :
    (s.answerRead n d).heldWrite = s.heldWrite := rfl
@[simp] theorem State.answerRead_nextSerial (n : Nat) (d : List ReadBeat) (s : State) :
    (s.answerRead n d).nextSerial = s.nextSerial := rfl
@[simp] theorem State.answerRead_busOut (n : Nat) (d : List ReadBeat) (s : State) :
    (s.answerRead n d).busOut = s.busOut := rfl
@[simp] theorem State.answerRead_pending (n : Nat) (d : List ReadBeat) (s : State) :
    (s.answerRead n d).pending = s.pending := rfl

/-! ### answerBeat -/

@[simp] theorem State.answerBeat_resetting (n : Nat) (d : List Byte) (y : Bool) (s : State) :
    (s.answerBeat n d y).resetting = s.resetting := rfl
@[simp] theorem State.answerBeat_powerEdge (n : Nat) (d : List Byte) (y : Bool) (s : State) :
    (s.answerBeat n d y).powerEdge = s.powerEdge := rfl
@[simp] theorem State.answerBeat_resetCause (n : Nat) (d : List Byte) (y : Bool) (s : State) :
    (s.answerBeat n d y).resetCause = s.resetCause := rfl
@[simp] theorem State.answerBeat_strap (n : Nat) (d : List Byte) (y : Bool) (s : State) :
    (s.answerBeat n d y).strap = s.strap := rfl
@[simp] theorem State.answerBeat_tick (n : Nat) (d : List Byte) (y : Bool) (s : State) :
    (s.answerBeat n d y).tick = s.tick := rfl
@[simp] theorem State.answerBeat_refA (n : Nat) (d : List Byte) (y : Bool) (s : State) :
    (s.answerBeat n d y).refA = s.refA := rfl
@[simp] theorem State.answerBeat_refB (n : Nat) (d : List Byte) (y : Bool) (s : State) :
    (s.answerBeat n d y).refB = s.refB := rfl
@[simp] theorem State.answerBeat_feeds (n : Nat) (d : List Byte) (y : Bool) (s : State) :
    (s.answerBeat n d y).feeds = s.feeds := rfl
@[simp] theorem State.answerBeat_outputs (n : Nat) (d : List Byte) (y : Bool) (s : State) :
    (s.answerBeat n d y).outputs = s.outputs := rfl
@[simp] theorem State.answerBeat_cache (n : Nat) (d : List Byte) (y : Bool) (s : State) :
    (s.answerBeat n d y).cache = s.cache := rfl
@[simp] theorem State.answerBeat_banks (n : Nat) (d : List Byte) (y : Bool) (s : State) :
    (s.answerBeat n d y).banks = s.banks := rfl
@[simp] theorem State.answerBeat_cells (n : Nat) (d : List Byte) (y : Bool) (s : State) :
    (s.answerBeat n d y).cells = s.cells := rfl
@[simp] theorem State.answerBeat_deviceWord (n : Nat) (d : List Byte) (y : Bool) (s : State) :
    (s.answerBeat n d y).deviceWord = s.deviceWord := rfl
@[simp] theorem State.answerBeat_deviceMask (n : Nat) (d : List Byte) (y : Bool) (s : State) :
    (s.answerBeat n d y).deviceMask = s.deviceMask := rfl
@[simp] theorem State.answerBeat_deviceUpdates (n : Nat) (d : List Byte) (y : Bool) (s : State) :
    (s.answerBeat n d y).deviceUpdates = s.deviceUpdates := rfl
@[simp] theorem State.answerBeat_notice (n : Nat) (d : List Byte) (y : Bool) (s : State) :
    (s.answerBeat n d y).notice = s.notice := rfl
@[simp] theorem State.answerBeat_class1 (n : Nat) (d : List Byte) (y : Bool) (s : State) :
    (s.answerBeat n d y).class1 = s.class1 := rfl
@[simp] theorem State.answerBeat_class2 (n : Nat) (d : List Byte) (y : Bool) (s : State) :
    (s.answerBeat n d y).class2 = s.class2 := rfl
@[simp] theorem State.answerBeat_class3 (n : Nat) (d : List Byte) (y : Bool) (s : State) :
    (s.answerBeat n d y).class3 = s.class3 := rfl
@[simp] theorem State.answerBeat_pointer (n : Nat) (d : List Byte) (y : Bool) (s : State) :
    (s.answerBeat n d y).pointer = s.pointer := rfl
@[simp] theorem State.answerBeat_granted (n : Nat) (d : List Byte) (y : Bool) (s : State) :
    (s.answerBeat n d y).granted = s.granted := rfl
@[simp] theorem State.answerBeat_waitingSlate (n : Nat) (d : List Byte) (y : Bool) (s : State) :
    (s.answerBeat n d y).waitingSlate = s.waitingSlate := rfl
@[simp] theorem State.answerBeat_writes (n : Nat) (d : List Byte) (y : Bool) (s : State) :
    (s.answerBeat n d y).writes = s.writes := rfl
@[simp] theorem State.answerBeat_heldRead (n : Nat) (d : List Byte) (y : Bool) (s : State) :
    (s.answerBeat n d y).heldRead = s.heldRead := rfl
@[simp] theorem State.answerBeat_heldWrite (n : Nat) (d : List Byte) (y : Bool) (s : State) :
    (s.answerBeat n d y).heldWrite = s.heldWrite := rfl
@[simp] theorem State.answerBeat_nextSerial (n : Nat) (d : List Byte) (y : Bool) (s : State) :
    (s.answerBeat n d y).nextSerial = s.nextSerial := rfl
@[simp] theorem State.answerBeat_busOut (n : Nat) (d : List Byte) (y : Bool) (s : State) :
    (s.answerBeat n d y).busOut = s.busOut := rfl
@[simp] theorem State.answerBeat_pending (n : Nat) (d : List Byte) (y : Bool) (s : State) :
    (s.answerBeat n d y).pending = s.pending := rfl

/-! ### answerWrite -/

@[simp] theorem State.answerWrite_resetting (n : Nat) (y : Resp) (s : State) :
    (s.answerWrite n y).resetting = s.resetting := rfl
@[simp] theorem State.answerWrite_powerEdge (n : Nat) (y : Resp) (s : State) :
    (s.answerWrite n y).powerEdge = s.powerEdge := rfl
@[simp] theorem State.answerWrite_resetCause (n : Nat) (y : Resp) (s : State) :
    (s.answerWrite n y).resetCause = s.resetCause := rfl
@[simp] theorem State.answerWrite_strap (n : Nat) (y : Resp) (s : State) :
    (s.answerWrite n y).strap = s.strap := rfl
@[simp] theorem State.answerWrite_tick (n : Nat) (y : Resp) (s : State) :
    (s.answerWrite n y).tick = s.tick := rfl
@[simp] theorem State.answerWrite_refA (n : Nat) (y : Resp) (s : State) :
    (s.answerWrite n y).refA = s.refA := rfl
@[simp] theorem State.answerWrite_refB (n : Nat) (y : Resp) (s : State) :
    (s.answerWrite n y).refB = s.refB := rfl
@[simp] theorem State.answerWrite_feeds (n : Nat) (y : Resp) (s : State) :
    (s.answerWrite n y).feeds = s.feeds := rfl
@[simp] theorem State.answerWrite_outputs (n : Nat) (y : Resp) (s : State) :
    (s.answerWrite n y).outputs = s.outputs := rfl
@[simp] theorem State.answerWrite_cache (n : Nat) (y : Resp) (s : State) :
    (s.answerWrite n y).cache = s.cache := rfl
@[simp] theorem State.answerWrite_banks (n : Nat) (y : Resp) (s : State) :
    (s.answerWrite n y).banks = s.banks := rfl
@[simp] theorem State.answerWrite_cells (n : Nat) (y : Resp) (s : State) :
    (s.answerWrite n y).cells = s.cells := rfl
@[simp] theorem State.answerWrite_deviceWord (n : Nat) (y : Resp) (s : State) :
    (s.answerWrite n y).deviceWord = s.deviceWord := rfl
@[simp] theorem State.answerWrite_deviceMask (n : Nat) (y : Resp) (s : State) :
    (s.answerWrite n y).deviceMask = s.deviceMask := rfl
@[simp] theorem State.answerWrite_deviceUpdates (n : Nat) (y : Resp) (s : State) :
    (s.answerWrite n y).deviceUpdates = s.deviceUpdates := rfl
@[simp] theorem State.answerWrite_notice (n : Nat) (y : Resp) (s : State) :
    (s.answerWrite n y).notice = s.notice := rfl
@[simp] theorem State.answerWrite_class1 (n : Nat) (y : Resp) (s : State) :
    (s.answerWrite n y).class1 = s.class1 := rfl
@[simp] theorem State.answerWrite_class2 (n : Nat) (y : Resp) (s : State) :
    (s.answerWrite n y).class2 = s.class2 := rfl
@[simp] theorem State.answerWrite_class3 (n : Nat) (y : Resp) (s : State) :
    (s.answerWrite n y).class3 = s.class3 := rfl
@[simp] theorem State.answerWrite_pointer (n : Nat) (y : Resp) (s : State) :
    (s.answerWrite n y).pointer = s.pointer := rfl
@[simp] theorem State.answerWrite_granted (n : Nat) (y : Resp) (s : State) :
    (s.answerWrite n y).granted = s.granted := rfl
@[simp] theorem State.answerWrite_waitingSlate (n : Nat) (y : Resp) (s : State) :
    (s.answerWrite n y).waitingSlate = s.waitingSlate := rfl
@[simp] theorem State.answerWrite_reads (n : Nat) (y : Resp) (s : State) :
    (s.answerWrite n y).reads = s.reads := rfl
@[simp] theorem State.answerWrite_heldRead (n : Nat) (y : Resp) (s : State) :
    (s.answerWrite n y).heldRead = s.heldRead := rfl
@[simp] theorem State.answerWrite_heldWrite (n : Nat) (y : Resp) (s : State) :
    (s.answerWrite n y).heldWrite = s.heldWrite := rfl
@[simp] theorem State.answerWrite_nextSerial (n : Nat) (y : Resp) (s : State) :
    (s.answerWrite n y).nextSerial = s.nextSerial := rfl
@[simp] theorem State.answerWrite_busOut (n : Nat) (y : Resp) (s : State) :
    (s.answerWrite n y).busOut = s.busOut := rfl
@[simp] theorem State.answerWrite_pending (n : Nat) (y : Resp) (s : State) :
    (s.answerWrite n y).pending = s.pending := rfl

/-! ### flush -/

@[simp] theorem State.flush_resetting (s : State) :
    (s.flush).resetting = s.resetting := rfl
@[simp] theorem State.flush_powerEdge (s : State) :
    (s.flush).powerEdge = s.powerEdge := rfl
@[simp] theorem State.flush_resetCause (s : State) :
    (s.flush).resetCause = s.resetCause := rfl
@[simp] theorem State.flush_strap (s : State) :
    (s.flush).strap = s.strap := rfl
@[simp] theorem State.flush_tick (s : State) :
    (s.flush).tick = s.tick := rfl
@[simp] theorem State.flush_refA (s : State) :
    (s.flush).refA = s.refA := rfl
@[simp] theorem State.flush_refB (s : State) :
    (s.flush).refB = s.refB := rfl
@[simp] theorem State.flush_feeds (s : State) :
    (s.flush).feeds = s.feeds := rfl
@[simp] theorem State.flush_outputs (s : State) :
    (s.flush).outputs = s.outputs := rfl
@[simp] theorem State.flush_cache (s : State) :
    (s.flush).cache = s.cache := rfl
@[simp] theorem State.flush_banks (s : State) :
    (s.flush).banks = s.banks := rfl
@[simp] theorem State.flush_cells (s : State) :
    (s.flush).cells = s.cells := rfl
@[simp] theorem State.flush_deviceWord (s : State) :
    (s.flush).deviceWord = s.deviceWord := rfl
@[simp] theorem State.flush_deviceMask (s : State) :
    (s.flush).deviceMask = s.deviceMask := rfl
@[simp] theorem State.flush_deviceUpdates (s : State) :
    (s.flush).deviceUpdates = s.deviceUpdates := rfl
@[simp] theorem State.flush_notice (s : State) :
    (s.flush).notice = s.notice := rfl
@[simp] theorem State.flush_class1 (s : State) :
    (s.flush).class1 = s.class1 := rfl
@[simp] theorem State.flush_class2 (s : State) :
    (s.flush).class2 = s.class2 := rfl
@[simp] theorem State.flush_class3 (s : State) :
    (s.flush).class3 = s.class3 := rfl
@[simp] theorem State.flush_pointer (s : State) :
    (s.flush).pointer = s.pointer := rfl
@[simp] theorem State.flush_granted (s : State) :
    (s.flush).granted = s.granted := rfl
@[simp] theorem State.flush_waitingSlate (s : State) :
    (s.flush).waitingSlate = s.waitingSlate := rfl
@[simp] theorem State.flush_heldRead (s : State) :
    (s.flush).heldRead = s.heldRead := rfl
@[simp] theorem State.flush_heldWrite (s : State) :
    (s.flush).heldWrite = s.heldWrite := rfl
@[simp] theorem State.flush_nextSerial (s : State) :
    (s.flush).nextSerial = s.nextSerial := rfl
@[simp] theorem State.flush_pending (s : State) :
    (s.flush).pending = s.pending := rfl

/-! ### notify -/

@[simp] theorem State.notify_resetting (p : CacheKey → Bool) (s : State) :
    (s.notify p).resetting = s.resetting := rfl
@[simp] theorem State.notify_powerEdge (p : CacheKey → Bool) (s : State) :
    (s.notify p).powerEdge = s.powerEdge := rfl
@[simp] theorem State.notify_resetCause (p : CacheKey → Bool) (s : State) :
    (s.notify p).resetCause = s.resetCause := rfl
@[simp] theorem State.notify_strap (p : CacheKey → Bool) (s : State) :
    (s.notify p).strap = s.strap := rfl
@[simp] theorem State.notify_tick (p : CacheKey → Bool) (s : State) :
    (s.notify p).tick = s.tick := rfl
@[simp] theorem State.notify_refA (p : CacheKey → Bool) (s : State) :
    (s.notify p).refA = s.refA := rfl
@[simp] theorem State.notify_refB (p : CacheKey → Bool) (s : State) :
    (s.notify p).refB = s.refB := rfl
@[simp] theorem State.notify_feeds (p : CacheKey → Bool) (s : State) :
    (s.notify p).feeds = s.feeds := rfl
@[simp] theorem State.notify_outputs (p : CacheKey → Bool) (s : State) :
    (s.notify p).outputs = s.outputs := rfl
@[simp] theorem State.notify_banks (p : CacheKey → Bool) (s : State) :
    (s.notify p).banks = s.banks := rfl
@[simp] theorem State.notify_cells (p : CacheKey → Bool) (s : State) :
    (s.notify p).cells = s.cells := rfl
@[simp] theorem State.notify_deviceWord (p : CacheKey → Bool) (s : State) :
    (s.notify p).deviceWord = s.deviceWord := rfl
@[simp] theorem State.notify_deviceMask (p : CacheKey → Bool) (s : State) :
    (s.notify p).deviceMask = s.deviceMask := rfl
@[simp] theorem State.notify_deviceUpdates (p : CacheKey → Bool) (s : State) :
    (s.notify p).deviceUpdates = s.deviceUpdates := rfl
@[simp] theorem State.notify_notice (p : CacheKey → Bool) (s : State) :
    (s.notify p).notice = s.notice := rfl
@[simp] theorem State.notify_class1 (p : CacheKey → Bool) (s : State) :
    (s.notify p).class1 = s.class1 := rfl
@[simp] theorem State.notify_class2 (p : CacheKey → Bool) (s : State) :
    (s.notify p).class2 = s.class2 := rfl
@[simp] theorem State.notify_class3 (p : CacheKey → Bool) (s : State) :
    (s.notify p).class3 = s.class3 := rfl
@[simp] theorem State.notify_pointer (p : CacheKey → Bool) (s : State) :
    (s.notify p).pointer = s.pointer := rfl
@[simp] theorem State.notify_granted (p : CacheKey → Bool) (s : State) :
    (s.notify p).granted = s.granted := rfl
@[simp] theorem State.notify_waitingSlate (p : CacheKey → Bool) (s : State) :
    (s.notify p).waitingSlate = s.waitingSlate := rfl
@[simp] theorem State.notify_reads (p : CacheKey → Bool) (s : State) :
    (s.notify p).reads = s.reads := rfl
@[simp] theorem State.notify_writes (p : CacheKey → Bool) (s : State) :
    (s.notify p).writes = s.writes := rfl
@[simp] theorem State.notify_heldRead (p : CacheKey → Bool) (s : State) :
    (s.notify p).heldRead = s.heldRead := rfl
@[simp] theorem State.notify_heldWrite (p : CacheKey → Bool) (s : State) :
    (s.notify p).heldWrite = s.heldWrite := rfl
@[simp] theorem State.notify_nextSerial (p : CacheKey → Bool) (s : State) :
    (s.notify p).nextSerial = s.nextSerial := rfl
@[simp] theorem State.notify_busOut (p : CacheKey → Bool) (s : State) :
    (s.notify p).busOut = s.busOut := rfl
@[simp] theorem State.notify_pending (p : CacheKey → Bool) (s : State) :
    (s.notify p).pending = s.pending := rfl

/-! ### request1 -/

@[simp] theorem State.request1_resetting (o : OutId) (fs : List Fetch) (s : State) :
    (s.request1 o fs).resetting = s.resetting := rfl
@[simp] theorem State.request1_powerEdge (o : OutId) (fs : List Fetch) (s : State) :
    (s.request1 o fs).powerEdge = s.powerEdge := rfl
@[simp] theorem State.request1_resetCause (o : OutId) (fs : List Fetch) (s : State) :
    (s.request1 o fs).resetCause = s.resetCause := rfl
@[simp] theorem State.request1_strap (o : OutId) (fs : List Fetch) (s : State) :
    (s.request1 o fs).strap = s.strap := rfl
@[simp] theorem State.request1_tick (o : OutId) (fs : List Fetch) (s : State) :
    (s.request1 o fs).tick = s.tick := rfl
@[simp] theorem State.request1_refA (o : OutId) (fs : List Fetch) (s : State) :
    (s.request1 o fs).refA = s.refA := rfl
@[simp] theorem State.request1_refB (o : OutId) (fs : List Fetch) (s : State) :
    (s.request1 o fs).refB = s.refB := rfl
@[simp] theorem State.request1_feeds (o : OutId) (fs : List Fetch) (s : State) :
    (s.request1 o fs).feeds = s.feeds := rfl
@[simp] theorem State.request1_outputs (o : OutId) (fs : List Fetch) (s : State) :
    (s.request1 o fs).outputs = s.outputs := rfl
@[simp] theorem State.request1_cache (o : OutId) (fs : List Fetch) (s : State) :
    (s.request1 o fs).cache = s.cache := rfl
@[simp] theorem State.request1_banks (o : OutId) (fs : List Fetch) (s : State) :
    (s.request1 o fs).banks = s.banks := rfl
@[simp] theorem State.request1_cells (o : OutId) (fs : List Fetch) (s : State) :
    (s.request1 o fs).cells = s.cells := rfl
@[simp] theorem State.request1_deviceWord (o : OutId) (fs : List Fetch) (s : State) :
    (s.request1 o fs).deviceWord = s.deviceWord := rfl
@[simp] theorem State.request1_deviceMask (o : OutId) (fs : List Fetch) (s : State) :
    (s.request1 o fs).deviceMask = s.deviceMask := rfl
@[simp] theorem State.request1_deviceUpdates (o : OutId) (fs : List Fetch) (s : State) :
    (s.request1 o fs).deviceUpdates = s.deviceUpdates := rfl
@[simp] theorem State.request1_notice (o : OutId) (fs : List Fetch) (s : State) :
    (s.request1 o fs).notice = s.notice := rfl
@[simp] theorem State.request1_class2 (o : OutId) (fs : List Fetch) (s : State) :
    (s.request1 o fs).class2 = s.class2 := rfl
@[simp] theorem State.request1_class3 (o : OutId) (fs : List Fetch) (s : State) :
    (s.request1 o fs).class3 = s.class3 := rfl
@[simp] theorem State.request1_pointer (o : OutId) (fs : List Fetch) (s : State) :
    (s.request1 o fs).pointer = s.pointer := rfl
@[simp] theorem State.request1_granted (o : OutId) (fs : List Fetch) (s : State) :
    (s.request1 o fs).granted = s.granted := rfl
@[simp] theorem State.request1_waitingSlate (o : OutId) (fs : List Fetch) (s : State) :
    (s.request1 o fs).waitingSlate = s.waitingSlate := rfl
@[simp] theorem State.request1_reads (o : OutId) (fs : List Fetch) (s : State) :
    (s.request1 o fs).reads = s.reads := rfl
@[simp] theorem State.request1_writes (o : OutId) (fs : List Fetch) (s : State) :
    (s.request1 o fs).writes = s.writes := rfl
@[simp] theorem State.request1_heldRead (o : OutId) (fs : List Fetch) (s : State) :
    (s.request1 o fs).heldRead = s.heldRead := rfl
@[simp] theorem State.request1_heldWrite (o : OutId) (fs : List Fetch) (s : State) :
    (s.request1 o fs).heldWrite = s.heldWrite := rfl
@[simp] theorem State.request1_nextSerial (o : OutId) (fs : List Fetch) (s : State) :
    (s.request1 o fs).nextSerial = s.nextSerial := rfl
@[simp] theorem State.request1_busOut (o : OutId) (fs : List Fetch) (s : State) :
    (s.request1 o fs).busOut = s.busOut := rfl
@[simp] theorem State.request1_pending (o : OutId) (fs : List Fetch) (s : State) :
    (s.request1 o fs).pending = s.pending := rfl

/-! ### addGranted -/

@[simp] theorem State.addGranted_resetting (n : BitVec 9) (y : Bool) (w : Work) (s : State) :
    (s.addGranted n y w).resetting = s.resetting := rfl
@[simp] theorem State.addGranted_powerEdge (n : BitVec 9) (y : Bool) (w : Work) (s : State) :
    (s.addGranted n y w).powerEdge = s.powerEdge := rfl
@[simp] theorem State.addGranted_resetCause (n : BitVec 9) (y : Bool) (w : Work) (s : State) :
    (s.addGranted n y w).resetCause = s.resetCause := rfl
@[simp] theorem State.addGranted_strap (n : BitVec 9) (y : Bool) (w : Work) (s : State) :
    (s.addGranted n y w).strap = s.strap := rfl
@[simp] theorem State.addGranted_tick (n : BitVec 9) (y : Bool) (w : Work) (s : State) :
    (s.addGranted n y w).tick = s.tick := rfl
@[simp] theorem State.addGranted_refA (n : BitVec 9) (y : Bool) (w : Work) (s : State) :
    (s.addGranted n y w).refA = s.refA := rfl
@[simp] theorem State.addGranted_refB (n : BitVec 9) (y : Bool) (w : Work) (s : State) :
    (s.addGranted n y w).refB = s.refB := rfl
@[simp] theorem State.addGranted_feeds (n : BitVec 9) (y : Bool) (w : Work) (s : State) :
    (s.addGranted n y w).feeds = s.feeds := rfl
@[simp] theorem State.addGranted_outputs (n : BitVec 9) (y : Bool) (w : Work) (s : State) :
    (s.addGranted n y w).outputs = s.outputs := rfl
@[simp] theorem State.addGranted_cache (n : BitVec 9) (y : Bool) (w : Work) (s : State) :
    (s.addGranted n y w).cache = s.cache := rfl
@[simp] theorem State.addGranted_banks (n : BitVec 9) (y : Bool) (w : Work) (s : State) :
    (s.addGranted n y w).banks = s.banks := rfl
@[simp] theorem State.addGranted_cells (n : BitVec 9) (y : Bool) (w : Work) (s : State) :
    (s.addGranted n y w).cells = s.cells := rfl
@[simp] theorem State.addGranted_deviceWord (n : BitVec 9) (y : Bool) (w : Work) (s : State) :
    (s.addGranted n y w).deviceWord = s.deviceWord := rfl
@[simp] theorem State.addGranted_deviceMask (n : BitVec 9) (y : Bool) (w : Work) (s : State) :
    (s.addGranted n y w).deviceMask = s.deviceMask := rfl
@[simp] theorem State.addGranted_deviceUpdates (n : BitVec 9) (y : Bool) (w : Work) (s : State) :
    (s.addGranted n y w).deviceUpdates = s.deviceUpdates := rfl
@[simp] theorem State.addGranted_notice (n : BitVec 9) (y : Bool) (w : Work) (s : State) :
    (s.addGranted n y w).notice = s.notice := rfl
@[simp] theorem State.addGranted_class1 (n : BitVec 9) (y : Bool) (w : Work) (s : State) :
    (s.addGranted n y w).class1 = s.class1 := rfl
@[simp] theorem State.addGranted_class2 (n : BitVec 9) (y : Bool) (w : Work) (s : State) :
    (s.addGranted n y w).class2 = s.class2 := rfl
@[simp] theorem State.addGranted_class3 (n : BitVec 9) (y : Bool) (w : Work) (s : State) :
    (s.addGranted n y w).class3 = s.class3 := rfl
@[simp] theorem State.addGranted_pointer (n : BitVec 9) (y : Bool) (w : Work) (s : State) :
    (s.addGranted n y w).pointer = s.pointer := rfl
@[simp] theorem State.addGranted_waitingSlate (n : BitVec 9) (y : Bool) (w : Work) (s : State) :
    (s.addGranted n y w).waitingSlate = s.waitingSlate := rfl
@[simp] theorem State.addGranted_reads (n : BitVec 9) (y : Bool) (w : Work) (s : State) :
    (s.addGranted n y w).reads = s.reads := rfl
@[simp] theorem State.addGranted_writes (n : BitVec 9) (y : Bool) (w : Work) (s : State) :
    (s.addGranted n y w).writes = s.writes := rfl
@[simp] theorem State.addGranted_heldRead (n : BitVec 9) (y : Bool) (w : Work) (s : State) :
    (s.addGranted n y w).heldRead = s.heldRead := rfl
@[simp] theorem State.addGranted_heldWrite (n : BitVec 9) (y : Bool) (w : Work) (s : State) :
    (s.addGranted n y w).heldWrite = s.heldWrite := rfl
@[simp] theorem State.addGranted_nextSerial (n : BitVec 9) (y : Bool) (w : Work) (s : State) :
    (s.addGranted n y w).nextSerial = s.nextSerial := rfl
@[simp] theorem State.addGranted_busOut (n : BitVec 9) (y : Bool) (w : Work) (s : State) :
    (s.addGranted n y w).busOut = s.busOut := rfl
@[simp] theorem State.addGranted_pending (n : BitVec 9) (y : Bool) (w : Work) (s : State) :
    (s.addGranted n y w).pending = s.pending := rfl

/-! ### putHeld -/

@[simp] theorem State.putHeld_resetting (b : Burst) (x : Option Burst) (s : State) :
    (s.putHeld b x).resetting = s.resetting := by unfold State.putHeld; split <;> rfl
@[simp] theorem State.putHeld_powerEdge (b : Burst) (x : Option Burst) (s : State) :
    (s.putHeld b x).powerEdge = s.powerEdge := by unfold State.putHeld; split <;> rfl
@[simp] theorem State.putHeld_resetCause (b : Burst) (x : Option Burst) (s : State) :
    (s.putHeld b x).resetCause = s.resetCause := by unfold State.putHeld; split <;> rfl
@[simp] theorem State.putHeld_strap (b : Burst) (x : Option Burst) (s : State) :
    (s.putHeld b x).strap = s.strap := by unfold State.putHeld; split <;> rfl
@[simp] theorem State.putHeld_tick (b : Burst) (x : Option Burst) (s : State) :
    (s.putHeld b x).tick = s.tick := by unfold State.putHeld; split <;> rfl
@[simp] theorem State.putHeld_refA (b : Burst) (x : Option Burst) (s : State) :
    (s.putHeld b x).refA = s.refA := by unfold State.putHeld; split <;> rfl
@[simp] theorem State.putHeld_refB (b : Burst) (x : Option Burst) (s : State) :
    (s.putHeld b x).refB = s.refB := by unfold State.putHeld; split <;> rfl
@[simp] theorem State.putHeld_feeds (b : Burst) (x : Option Burst) (s : State) :
    (s.putHeld b x).feeds = s.feeds := by unfold State.putHeld; split <;> rfl
@[simp] theorem State.putHeld_outputs (b : Burst) (x : Option Burst) (s : State) :
    (s.putHeld b x).outputs = s.outputs := by unfold State.putHeld; split <;> rfl
@[simp] theorem State.putHeld_cache (b : Burst) (x : Option Burst) (s : State) :
    (s.putHeld b x).cache = s.cache := by unfold State.putHeld; split <;> rfl
@[simp] theorem State.putHeld_banks (b : Burst) (x : Option Burst) (s : State) :
    (s.putHeld b x).banks = s.banks := by unfold State.putHeld; split <;> rfl
@[simp] theorem State.putHeld_cells (b : Burst) (x : Option Burst) (s : State) :
    (s.putHeld b x).cells = s.cells := by unfold State.putHeld; split <;> rfl
@[simp] theorem State.putHeld_deviceWord (b : Burst) (x : Option Burst) (s : State) :
    (s.putHeld b x).deviceWord = s.deviceWord := by unfold State.putHeld; split <;> rfl
@[simp] theorem State.putHeld_deviceMask (b : Burst) (x : Option Burst) (s : State) :
    (s.putHeld b x).deviceMask = s.deviceMask := by unfold State.putHeld; split <;> rfl
@[simp] theorem State.putHeld_deviceUpdates (b : Burst) (x : Option Burst) (s : State) :
    (s.putHeld b x).deviceUpdates = s.deviceUpdates := by unfold State.putHeld; split <;> rfl
@[simp] theorem State.putHeld_notice (b : Burst) (x : Option Burst) (s : State) :
    (s.putHeld b x).notice = s.notice := by unfold State.putHeld; split <;> rfl
@[simp] theorem State.putHeld_class1 (b : Burst) (x : Option Burst) (s : State) :
    (s.putHeld b x).class1 = s.class1 := by unfold State.putHeld; split <;> rfl
@[simp] theorem State.putHeld_class2 (b : Burst) (x : Option Burst) (s : State) :
    (s.putHeld b x).class2 = s.class2 := by unfold State.putHeld; split <;> rfl
@[simp] theorem State.putHeld_class3 (b : Burst) (x : Option Burst) (s : State) :
    (s.putHeld b x).class3 = s.class3 := by unfold State.putHeld; split <;> rfl
@[simp] theorem State.putHeld_pointer (b : Burst) (x : Option Burst) (s : State) :
    (s.putHeld b x).pointer = s.pointer := by unfold State.putHeld; split <;> rfl
@[simp] theorem State.putHeld_granted (b : Burst) (x : Option Burst) (s : State) :
    (s.putHeld b x).granted = s.granted := by unfold State.putHeld; split <;> rfl
@[simp] theorem State.putHeld_waitingSlate (b : Burst) (x : Option Burst) (s : State) :
    (s.putHeld b x).waitingSlate = s.waitingSlate := by unfold State.putHeld; split <;> rfl
@[simp] theorem State.putHeld_reads (b : Burst) (x : Option Burst) (s : State) :
    (s.putHeld b x).reads = s.reads := by unfold State.putHeld; split <;> rfl
@[simp] theorem State.putHeld_writes (b : Burst) (x : Option Burst) (s : State) :
    (s.putHeld b x).writes = s.writes := by unfold State.putHeld; split <;> rfl
@[simp] theorem State.putHeld_nextSerial (b : Burst) (x : Option Burst) (s : State) :
    (s.putHeld b x).nextSerial = s.nextSerial := by unfold State.putHeld; split <;> rfl
@[simp] theorem State.putHeld_busOut (b : Burst) (x : Option Burst) (s : State) :
    (s.putHeld b x).busOut = s.busOut := by unfold State.putHeld; split <;> rfl
@[simp] theorem State.putHeld_pending (b : Burst) (x : Option Burst) (s : State) :
    (s.putHeld b x).pending = s.pending := by unfold State.putHeld; split <;> rfl

/-! ### putRef -/

@[simp] theorem State.putRef_resetting (r : Ref) (x : RefInput) (s : State) :
    (s.putRef r x).resetting = s.resetting := by cases r <;> simp only [State.putRef] <;> split <;> simp
@[simp] theorem State.putRef_powerEdge (r : Ref) (x : RefInput) (s : State) :
    (s.putRef r x).powerEdge = s.powerEdge := by cases r <;> simp only [State.putRef] <;> split <;> simp
@[simp] theorem State.putRef_resetCause (r : Ref) (x : RefInput) (s : State) :
    (s.putRef r x).resetCause = s.resetCause := by cases r <;> simp only [State.putRef] <;> split <;> simp
@[simp] theorem State.putRef_strap (r : Ref) (x : RefInput) (s : State) :
    (s.putRef r x).strap = s.strap := by cases r <;> simp only [State.putRef] <;> split <;> simp
@[simp] theorem State.putRef_tick (r : Ref) (x : RefInput) (s : State) :
    (s.putRef r x).tick = s.tick := by cases r <;> simp only [State.putRef] <;> split <;> simp
@[simp] theorem State.putRef_feeds (r : Ref) (x : RefInput) (s : State) :
    (s.putRef r x).feeds = s.feeds := by cases r <;> simp only [State.putRef] <;> split <;> simp
@[simp] theorem State.putRef_outputs (r : Ref) (x : RefInput) (s : State) :
    (s.putRef r x).outputs = s.outputs := by cases r <;> simp only [State.putRef] <;> split <;> simp
@[simp] theorem State.putRef_cache (r : Ref) (x : RefInput) (s : State) :
    (s.putRef r x).cache = s.cache := by cases r <;> simp only [State.putRef] <;> split <;> simp
@[simp] theorem State.putRef_banks (r : Ref) (x : RefInput) (s : State) :
    (s.putRef r x).banks = s.banks := by cases r <;> simp only [State.putRef] <;> split <;> simp
@[simp] theorem State.putRef_cells (r : Ref) (x : RefInput) (s : State) :
    (s.putRef r x).cells = s.cells := by cases r <;> simp only [State.putRef] <;> split <;> simp
@[simp] theorem State.putRef_deviceWord (r : Ref) (x : RefInput) (s : State) :
    (s.putRef r x).deviceWord = s.deviceWord := by cases r <;> simp only [State.putRef] <;> split <;> simp
@[simp] theorem State.putRef_deviceMask (r : Ref) (x : RefInput) (s : State) :
    (s.putRef r x).deviceMask = s.deviceMask := by cases r <;> simp only [State.putRef] <;> split <;> simp
@[simp] theorem State.putRef_deviceUpdates (r : Ref) (x : RefInput) (s : State) :
    (s.putRef r x).deviceUpdates = s.deviceUpdates := by cases r <;> simp only [State.putRef] <;> split <;> simp
@[simp] theorem State.putRef_notice (r : Ref) (x : RefInput) (s : State) :
    (s.putRef r x).notice = s.notice := by cases r <;> simp only [State.putRef] <;> split <;> simp
@[simp] theorem State.putRef_class1 (r : Ref) (x : RefInput) (s : State) :
    (s.putRef r x).class1 = s.class1 := by cases r <;> simp only [State.putRef] <;> split <;> simp
@[simp] theorem State.putRef_class2 (r : Ref) (x : RefInput) (s : State) :
    (s.putRef r x).class2 = s.class2 := by cases r <;> simp only [State.putRef] <;> split <;> simp
@[simp] theorem State.putRef_pointer (r : Ref) (x : RefInput) (s : State) :
    (s.putRef r x).pointer = s.pointer := by cases r <;> simp only [State.putRef] <;> split <;> simp
@[simp] theorem State.putRef_granted (r : Ref) (x : RefInput) (s : State) :
    (s.putRef r x).granted = s.granted := by cases r <;> simp only [State.putRef] <;> split <;> simp
@[simp] theorem State.putRef_waitingSlate (r : Ref) (x : RefInput) (s : State) :
    (s.putRef r x).waitingSlate = s.waitingSlate := by cases r <;> simp only [State.putRef] <;> split <;> simp
@[simp] theorem State.putRef_reads (r : Ref) (x : RefInput) (s : State) :
    (s.putRef r x).reads = s.reads := by cases r <;> simp only [State.putRef] <;> split <;> simp
@[simp] theorem State.putRef_writes (r : Ref) (x : RefInput) (s : State) :
    (s.putRef r x).writes = s.writes := by cases r <;> simp only [State.putRef] <;> split <;> simp
@[simp] theorem State.putRef_heldRead (r : Ref) (x : RefInput) (s : State) :
    (s.putRef r x).heldRead = s.heldRead := by cases r <;> simp only [State.putRef] <;> split <;> simp
@[simp] theorem State.putRef_heldWrite (r : Ref) (x : RefInput) (s : State) :
    (s.putRef r x).heldWrite = s.heldWrite := by cases r <;> simp only [State.putRef] <;> split <;> simp
@[simp] theorem State.putRef_nextSerial (r : Ref) (x : RefInput) (s : State) :
    (s.putRef r x).nextSerial = s.nextSerial := by cases r <;> simp only [State.putRef] <;> split <;> simp
@[simp] theorem State.putRef_busOut (r : Ref) (x : RefInput) (s : State) :
    (s.putRef r x).busOut = s.busOut := by cases r <;> simp only [State.putRef] <;> split <;> simp
@[simp] theorem State.putRef_pending (r : Ref) (x : RefInput) (s : State) :
    (s.putRef r x).pending = s.pending := by cases r <;> simp only [State.putRef] <;> split <;> simp

/-! ### countUpdate -/

@[simp] theorem State.countUpdate_resetting (r : RecordSel) (s : State) :
    (s.countUpdate r).resetting = s.resetting := by cases r <;> rfl
@[simp] theorem State.countUpdate_powerEdge (r : RecordSel) (s : State) :
    (s.countUpdate r).powerEdge = s.powerEdge := by cases r <;> rfl
@[simp] theorem State.countUpdate_resetCause (r : RecordSel) (s : State) :
    (s.countUpdate r).resetCause = s.resetCause := by cases r <;> rfl
@[simp] theorem State.countUpdate_strap (r : RecordSel) (s : State) :
    (s.countUpdate r).strap = s.strap := by cases r <;> rfl
@[simp] theorem State.countUpdate_tick (r : RecordSel) (s : State) :
    (s.countUpdate r).tick = s.tick := by cases r <;> rfl
@[simp] theorem State.countUpdate_refA (r : RecordSel) (s : State) :
    (s.countUpdate r).refA = s.refA := by cases r <;> rfl
@[simp] theorem State.countUpdate_refB (r : RecordSel) (s : State) :
    (s.countUpdate r).refB = s.refB := by cases r <;> rfl
@[simp] theorem State.countUpdate_cache (r : RecordSel) (s : State) :
    (s.countUpdate r).cache = s.cache := by cases r <;> rfl
@[simp] theorem State.countUpdate_banks (r : RecordSel) (s : State) :
    (s.countUpdate r).banks = s.banks := by cases r <;> rfl
@[simp] theorem State.countUpdate_cells (r : RecordSel) (s : State) :
    (s.countUpdate r).cells = s.cells := by cases r <;> rfl
@[simp] theorem State.countUpdate_deviceWord (r : RecordSel) (s : State) :
    (s.countUpdate r).deviceWord = s.deviceWord := by cases r <;> rfl
@[simp] theorem State.countUpdate_deviceMask (r : RecordSel) (s : State) :
    (s.countUpdate r).deviceMask = s.deviceMask := by cases r <;> rfl
@[simp] theorem State.countUpdate_notice (r : RecordSel) (s : State) :
    (s.countUpdate r).notice = s.notice := by cases r <;> rfl
@[simp] theorem State.countUpdate_class1 (r : RecordSel) (s : State) :
    (s.countUpdate r).class1 = s.class1 := by cases r <;> rfl
@[simp] theorem State.countUpdate_class2 (r : RecordSel) (s : State) :
    (s.countUpdate r).class2 = s.class2 := by cases r <;> rfl
@[simp] theorem State.countUpdate_class3 (r : RecordSel) (s : State) :
    (s.countUpdate r).class3 = s.class3 := by cases r <;> rfl
@[simp] theorem State.countUpdate_pointer (r : RecordSel) (s : State) :
    (s.countUpdate r).pointer = s.pointer := by cases r <;> rfl
@[simp] theorem State.countUpdate_granted (r : RecordSel) (s : State) :
    (s.countUpdate r).granted = s.granted := by cases r <;> rfl
@[simp] theorem State.countUpdate_waitingSlate (r : RecordSel) (s : State) :
    (s.countUpdate r).waitingSlate = s.waitingSlate := by cases r <;> rfl
@[simp] theorem State.countUpdate_reads (r : RecordSel) (s : State) :
    (s.countUpdate r).reads = s.reads := by cases r <;> rfl
@[simp] theorem State.countUpdate_writes (r : RecordSel) (s : State) :
    (s.countUpdate r).writes = s.writes := by cases r <;> rfl
@[simp] theorem State.countUpdate_heldRead (r : RecordSel) (s : State) :
    (s.countUpdate r).heldRead = s.heldRead := by cases r <;> rfl
@[simp] theorem State.countUpdate_heldWrite (r : RecordSel) (s : State) :
    (s.countUpdate r).heldWrite = s.heldWrite := by cases r <;> rfl
@[simp] theorem State.countUpdate_nextSerial (r : RecordSel) (s : State) :
    (s.countUpdate r).nextSerial = s.nextSerial := by cases r <;> rfl
@[simp] theorem State.countUpdate_busOut (r : RecordSel) (s : State) :
    (s.countUpdate r).busOut = s.busOut := by cases r <;> rfl
@[simp] theorem State.countUpdate_pending (r : RecordSel) (s : State) :
    (s.countUpdate r).pending = s.pending := by cases r <;> rfl

/-! ### changePin -/

@[simp] theorem State.changePin_resetting (g : Nat → Nat) (r : RecordRef) (s : State) :
    (s.changePin g r).resetting = s.resetting := State.putFeed_resetting ..
@[simp] theorem State.changePin_powerEdge (g : Nat → Nat) (r : RecordRef) (s : State) :
    (s.changePin g r).powerEdge = s.powerEdge := State.putFeed_powerEdge ..
@[simp] theorem State.changePin_resetCause (g : Nat → Nat) (r : RecordRef) (s : State) :
    (s.changePin g r).resetCause = s.resetCause := State.putFeed_resetCause ..
@[simp] theorem State.changePin_strap (g : Nat → Nat) (r : RecordRef) (s : State) :
    (s.changePin g r).strap = s.strap := State.putFeed_strap ..
@[simp] theorem State.changePin_tick (g : Nat → Nat) (r : RecordRef) (s : State) :
    (s.changePin g r).tick = s.tick := State.putFeed_tick ..
@[simp] theorem State.changePin_refA (g : Nat → Nat) (r : RecordRef) (s : State) :
    (s.changePin g r).refA = s.refA := State.putFeed_refA ..
@[simp] theorem State.changePin_refB (g : Nat → Nat) (r : RecordRef) (s : State) :
    (s.changePin g r).refB = s.refB := State.putFeed_refB ..
@[simp] theorem State.changePin_outputs (g : Nat → Nat) (r : RecordRef) (s : State) :
    (s.changePin g r).outputs = s.outputs := State.putFeed_outputs ..
@[simp] theorem State.changePin_cache (g : Nat → Nat) (r : RecordRef) (s : State) :
    (s.changePin g r).cache = s.cache := State.putFeed_cache ..
@[simp] theorem State.changePin_banks (g : Nat → Nat) (r : RecordRef) (s : State) :
    (s.changePin g r).banks = s.banks := State.putFeed_banks ..
@[simp] theorem State.changePin_cells (g : Nat → Nat) (r : RecordRef) (s : State) :
    (s.changePin g r).cells = s.cells := State.putFeed_cells ..
@[simp] theorem State.changePin_deviceMask (g : Nat → Nat) (r : RecordRef) (s : State) :
    (s.changePin g r).deviceMask = s.deviceMask := State.putFeed_deviceMask ..
@[simp] theorem State.changePin_deviceUpdates (g : Nat → Nat) (r : RecordRef) (s : State) :
    (s.changePin g r).deviceUpdates = s.deviceUpdates := State.putFeed_deviceUpdates ..
@[simp] theorem State.changePin_class1 (g : Nat → Nat) (r : RecordRef) (s : State) :
    (s.changePin g r).class1 = s.class1 := State.putFeed_class1 ..
@[simp] theorem State.changePin_class2 (g : Nat → Nat) (r : RecordRef) (s : State) :
    (s.changePin g r).class2 = s.class2 := State.putFeed_class2 ..
@[simp] theorem State.changePin_pointer (g : Nat → Nat) (r : RecordRef) (s : State) :
    (s.changePin g r).pointer = s.pointer := State.putFeed_pointer ..
@[simp] theorem State.changePin_granted (g : Nat → Nat) (r : RecordRef) (s : State) :
    (s.changePin g r).granted = s.granted := State.putFeed_granted ..
@[simp] theorem State.changePin_waitingSlate (g : Nat → Nat) (r : RecordRef) (s : State) :
    (s.changePin g r).waitingSlate = s.waitingSlate := State.putFeed_waitingSlate ..
@[simp] theorem State.changePin_reads (g : Nat → Nat) (r : RecordRef) (s : State) :
    (s.changePin g r).reads = s.reads := State.putFeed_reads ..
@[simp] theorem State.changePin_writes (g : Nat → Nat) (r : RecordRef) (s : State) :
    (s.changePin g r).writes = s.writes := State.putFeed_writes ..
@[simp] theorem State.changePin_heldRead (g : Nat → Nat) (r : RecordRef) (s : State) :
    (s.changePin g r).heldRead = s.heldRead := State.putFeed_heldRead ..
@[simp] theorem State.changePin_heldWrite (g : Nat → Nat) (r : RecordRef) (s : State) :
    (s.changePin g r).heldWrite = s.heldWrite := State.putFeed_heldWrite ..
@[simp] theorem State.changePin_nextSerial (g : Nat → Nat) (r : RecordRef) (s : State) :
    (s.changePin g r).nextSerial = s.nextSerial := State.putFeed_nextSerial ..
@[simp] theorem State.changePin_busOut (g : Nat → Nat) (r : RecordRef) (s : State) :
    (s.changePin g r).busOut = s.busOut := State.putFeed_busOut ..
@[simp] theorem State.changePin_pending (g : Nat → Nat) (r : RecordRef) (s : State) :
    (s.changePin g r).pending = s.pending := State.putFeed_pending ..

/-! ### pin -/

@[simp] theorem State.pin_resetting (x : Context) (s : State) :
    (s.pin x).resetting = s.resetting := by unfold State.pin; exact foldl_keeps State.resetting _ (fun _ _ => State.changePin_resetting ..) _ _
@[simp] theorem State.pin_powerEdge (x : Context) (s : State) :
    (s.pin x).powerEdge = s.powerEdge := by unfold State.pin; exact foldl_keeps State.powerEdge _ (fun _ _ => State.changePin_powerEdge ..) _ _
@[simp] theorem State.pin_resetCause (x : Context) (s : State) :
    (s.pin x).resetCause = s.resetCause := by unfold State.pin; exact foldl_keeps State.resetCause _ (fun _ _ => State.changePin_resetCause ..) _ _
@[simp] theorem State.pin_strap (x : Context) (s : State) :
    (s.pin x).strap = s.strap := by unfold State.pin; exact foldl_keeps State.strap _ (fun _ _ => State.changePin_strap ..) _ _
@[simp] theorem State.pin_tick (x : Context) (s : State) :
    (s.pin x).tick = s.tick := by unfold State.pin; exact foldl_keeps State.tick _ (fun _ _ => State.changePin_tick ..) _ _
@[simp] theorem State.pin_refA (x : Context) (s : State) :
    (s.pin x).refA = s.refA := by unfold State.pin; exact foldl_keeps State.refA _ (fun _ _ => State.changePin_refA ..) _ _
@[simp] theorem State.pin_refB (x : Context) (s : State) :
    (s.pin x).refB = s.refB := by unfold State.pin; exact foldl_keeps State.refB _ (fun _ _ => State.changePin_refB ..) _ _
@[simp] theorem State.pin_outputs (x : Context) (s : State) :
    (s.pin x).outputs = s.outputs := by unfold State.pin; exact foldl_keeps State.outputs _ (fun _ _ => State.changePin_outputs ..) _ _
@[simp] theorem State.pin_cache (x : Context) (s : State) :
    (s.pin x).cache = s.cache := by unfold State.pin; exact foldl_keeps State.cache _ (fun _ _ => State.changePin_cache ..) _ _
@[simp] theorem State.pin_banks (x : Context) (s : State) :
    (s.pin x).banks = s.banks := by unfold State.pin; exact foldl_keeps State.banks _ (fun _ _ => State.changePin_banks ..) _ _
@[simp] theorem State.pin_cells (x : Context) (s : State) :
    (s.pin x).cells = s.cells := by unfold State.pin; exact foldl_keeps State.cells _ (fun _ _ => State.changePin_cells ..) _ _
@[simp] theorem State.pin_deviceMask (x : Context) (s : State) :
    (s.pin x).deviceMask = s.deviceMask := by unfold State.pin; exact foldl_keeps State.deviceMask _ (fun _ _ => State.changePin_deviceMask ..) _ _
@[simp] theorem State.pin_deviceUpdates (x : Context) (s : State) :
    (s.pin x).deviceUpdates = s.deviceUpdates := by unfold State.pin; exact foldl_keeps State.deviceUpdates _ (fun _ _ => State.changePin_deviceUpdates ..) _ _
@[simp] theorem State.pin_class1 (x : Context) (s : State) :
    (s.pin x).class1 = s.class1 := by unfold State.pin; exact foldl_keeps State.class1 _ (fun _ _ => State.changePin_class1 ..) _ _
@[simp] theorem State.pin_class2 (x : Context) (s : State) :
    (s.pin x).class2 = s.class2 := by unfold State.pin; exact foldl_keeps State.class2 _ (fun _ _ => State.changePin_class2 ..) _ _
@[simp] theorem State.pin_pointer (x : Context) (s : State) :
    (s.pin x).pointer = s.pointer := by unfold State.pin; exact foldl_keeps State.pointer _ (fun _ _ => State.changePin_pointer ..) _ _
@[simp] theorem State.pin_granted (x : Context) (s : State) :
    (s.pin x).granted = s.granted := by unfold State.pin; exact foldl_keeps State.granted _ (fun _ _ => State.changePin_granted ..) _ _
@[simp] theorem State.pin_waitingSlate (x : Context) (s : State) :
    (s.pin x).waitingSlate = s.waitingSlate := by unfold State.pin; exact foldl_keeps State.waitingSlate _ (fun _ _ => State.changePin_waitingSlate ..) _ _
@[simp] theorem State.pin_reads (x : Context) (s : State) :
    (s.pin x).reads = s.reads := by unfold State.pin; exact foldl_keeps State.reads _ (fun _ _ => State.changePin_reads ..) _ _
@[simp] theorem State.pin_writes (x : Context) (s : State) :
    (s.pin x).writes = s.writes := by unfold State.pin; exact foldl_keeps State.writes _ (fun _ _ => State.changePin_writes ..) _ _
@[simp] theorem State.pin_heldRead (x : Context) (s : State) :
    (s.pin x).heldRead = s.heldRead := by unfold State.pin; exact foldl_keeps State.heldRead _ (fun _ _ => State.changePin_heldRead ..) _ _
@[simp] theorem State.pin_heldWrite (x : Context) (s : State) :
    (s.pin x).heldWrite = s.heldWrite := by unfold State.pin; exact foldl_keeps State.heldWrite _ (fun _ _ => State.changePin_heldWrite ..) _ _
@[simp] theorem State.pin_nextSerial (x : Context) (s : State) :
    (s.pin x).nextSerial = s.nextSerial := by unfold State.pin; exact foldl_keeps State.nextSerial _ (fun _ _ => State.changePin_nextSerial ..) _ _
@[simp] theorem State.pin_busOut (x : Context) (s : State) :
    (s.pin x).busOut = s.busOut := by unfold State.pin; exact foldl_keeps State.busOut _ (fun _ _ => State.changePin_busOut ..) _ _
@[simp] theorem State.pin_pending (x : Context) (s : State) :
    (s.pin x).pending = s.pending := by unfold State.pin; exact foldl_keeps State.pending _ (fun _ _ => State.changePin_pending ..) _ _

/-! ### unpin -/

@[simp] theorem State.unpin_resetting (x : Context) (s : State) :
    (s.unpin x).resetting = s.resetting := by unfold State.unpin; exact foldl_keeps State.resetting _ (fun _ _ => State.changePin_resetting ..) _ _
@[simp] theorem State.unpin_powerEdge (x : Context) (s : State) :
    (s.unpin x).powerEdge = s.powerEdge := by unfold State.unpin; exact foldl_keeps State.powerEdge _ (fun _ _ => State.changePin_powerEdge ..) _ _
@[simp] theorem State.unpin_resetCause (x : Context) (s : State) :
    (s.unpin x).resetCause = s.resetCause := by unfold State.unpin; exact foldl_keeps State.resetCause _ (fun _ _ => State.changePin_resetCause ..) _ _
@[simp] theorem State.unpin_strap (x : Context) (s : State) :
    (s.unpin x).strap = s.strap := by unfold State.unpin; exact foldl_keeps State.strap _ (fun _ _ => State.changePin_strap ..) _ _
@[simp] theorem State.unpin_tick (x : Context) (s : State) :
    (s.unpin x).tick = s.tick := by unfold State.unpin; exact foldl_keeps State.tick _ (fun _ _ => State.changePin_tick ..) _ _
@[simp] theorem State.unpin_refA (x : Context) (s : State) :
    (s.unpin x).refA = s.refA := by unfold State.unpin; exact foldl_keeps State.refA _ (fun _ _ => State.changePin_refA ..) _ _
@[simp] theorem State.unpin_refB (x : Context) (s : State) :
    (s.unpin x).refB = s.refB := by unfold State.unpin; exact foldl_keeps State.refB _ (fun _ _ => State.changePin_refB ..) _ _
@[simp] theorem State.unpin_outputs (x : Context) (s : State) :
    (s.unpin x).outputs = s.outputs := by unfold State.unpin; exact foldl_keeps State.outputs _ (fun _ _ => State.changePin_outputs ..) _ _
@[simp] theorem State.unpin_cache (x : Context) (s : State) :
    (s.unpin x).cache = s.cache := by unfold State.unpin; exact foldl_keeps State.cache _ (fun _ _ => State.changePin_cache ..) _ _
@[simp] theorem State.unpin_banks (x : Context) (s : State) :
    (s.unpin x).banks = s.banks := by unfold State.unpin; exact foldl_keeps State.banks _ (fun _ _ => State.changePin_banks ..) _ _
@[simp] theorem State.unpin_cells (x : Context) (s : State) :
    (s.unpin x).cells = s.cells := by unfold State.unpin; exact foldl_keeps State.cells _ (fun _ _ => State.changePin_cells ..) _ _
@[simp] theorem State.unpin_deviceMask (x : Context) (s : State) :
    (s.unpin x).deviceMask = s.deviceMask := by unfold State.unpin; exact foldl_keeps State.deviceMask _ (fun _ _ => State.changePin_deviceMask ..) _ _
@[simp] theorem State.unpin_deviceUpdates (x : Context) (s : State) :
    (s.unpin x).deviceUpdates = s.deviceUpdates := by unfold State.unpin; exact foldl_keeps State.deviceUpdates _ (fun _ _ => State.changePin_deviceUpdates ..) _ _
@[simp] theorem State.unpin_class1 (x : Context) (s : State) :
    (s.unpin x).class1 = s.class1 := by unfold State.unpin; exact foldl_keeps State.class1 _ (fun _ _ => State.changePin_class1 ..) _ _
@[simp] theorem State.unpin_class2 (x : Context) (s : State) :
    (s.unpin x).class2 = s.class2 := by unfold State.unpin; exact foldl_keeps State.class2 _ (fun _ _ => State.changePin_class2 ..) _ _
@[simp] theorem State.unpin_pointer (x : Context) (s : State) :
    (s.unpin x).pointer = s.pointer := by unfold State.unpin; exact foldl_keeps State.pointer _ (fun _ _ => State.changePin_pointer ..) _ _
@[simp] theorem State.unpin_granted (x : Context) (s : State) :
    (s.unpin x).granted = s.granted := by unfold State.unpin; exact foldl_keeps State.granted _ (fun _ _ => State.changePin_granted ..) _ _
@[simp] theorem State.unpin_waitingSlate (x : Context) (s : State) :
    (s.unpin x).waitingSlate = s.waitingSlate := by unfold State.unpin; exact foldl_keeps State.waitingSlate _ (fun _ _ => State.changePin_waitingSlate ..) _ _
@[simp] theorem State.unpin_reads (x : Context) (s : State) :
    (s.unpin x).reads = s.reads := by unfold State.unpin; exact foldl_keeps State.reads _ (fun _ _ => State.changePin_reads ..) _ _
@[simp] theorem State.unpin_writes (x : Context) (s : State) :
    (s.unpin x).writes = s.writes := by unfold State.unpin; exact foldl_keeps State.writes _ (fun _ _ => State.changePin_writes ..) _ _
@[simp] theorem State.unpin_heldRead (x : Context) (s : State) :
    (s.unpin x).heldRead = s.heldRead := by unfold State.unpin; exact foldl_keeps State.heldRead _ (fun _ _ => State.changePin_heldRead ..) _ _
@[simp] theorem State.unpin_heldWrite (x : Context) (s : State) :
    (s.unpin x).heldWrite = s.heldWrite := by unfold State.unpin; exact foldl_keeps State.heldWrite _ (fun _ _ => State.changePin_heldWrite ..) _ _
@[simp] theorem State.unpin_nextSerial (x : Context) (s : State) :
    (s.unpin x).nextSerial = s.nextSerial := by unfold State.unpin; exact foldl_keeps State.nextSerial _ (fun _ _ => State.changePin_nextSerial ..) _ _
@[simp] theorem State.unpin_busOut (x : Context) (s : State) :
    (s.unpin x).busOut = s.busOut := by unfold State.unpin; exact foldl_keeps State.busOut _ (fun _ _ => State.changePin_busOut ..) _ _
@[simp] theorem State.unpin_pending (x : Context) (s : State) :
    (s.unpin x).pending = s.pending := by unfold State.unpin; exact foldl_keeps State.pending _ (fun _ _ => State.changePin_pending ..) _ _

/-! ### endLoad -/

@[simp] theorem State.endLoad_resetting (k : BankId) (t : CoefTable) (s : State) :
    (s.endLoad k t).resetting = s.resetting := rfl
@[simp] theorem State.endLoad_powerEdge (k : BankId) (t : CoefTable) (s : State) :
    (s.endLoad k t).powerEdge = s.powerEdge := rfl
@[simp] theorem State.endLoad_resetCause (k : BankId) (t : CoefTable) (s : State) :
    (s.endLoad k t).resetCause = s.resetCause := rfl
@[simp] theorem State.endLoad_strap (k : BankId) (t : CoefTable) (s : State) :
    (s.endLoad k t).strap = s.strap := rfl
@[simp] theorem State.endLoad_tick (k : BankId) (t : CoefTable) (s : State) :
    (s.endLoad k t).tick = s.tick := rfl
@[simp] theorem State.endLoad_refA (k : BankId) (t : CoefTable) (s : State) :
    (s.endLoad k t).refA = s.refA := rfl
@[simp] theorem State.endLoad_refB (k : BankId) (t : CoefTable) (s : State) :
    (s.endLoad k t).refB = s.refB := rfl
@[simp] theorem State.endLoad_feeds (k : BankId) (t : CoefTable) (s : State) :
    (s.endLoad k t).feeds = s.feeds := rfl
@[simp] theorem State.endLoad_outputs (k : BankId) (t : CoefTable) (s : State) :
    (s.endLoad k t).outputs = s.outputs := rfl
@[simp] theorem State.endLoad_cache (k : BankId) (t : CoefTable) (s : State) :
    (s.endLoad k t).cache = s.cache := rfl
@[simp] theorem State.endLoad_cells (k : BankId) (t : CoefTable) (s : State) :
    (s.endLoad k t).cells = s.cells := rfl
@[simp] theorem State.endLoad_deviceWord (k : BankId) (t : CoefTable) (s : State) :
    (s.endLoad k t).deviceWord = s.deviceWord := rfl
@[simp] theorem State.endLoad_deviceMask (k : BankId) (t : CoefTable) (s : State) :
    (s.endLoad k t).deviceMask = s.deviceMask := rfl
@[simp] theorem State.endLoad_deviceUpdates (k : BankId) (t : CoefTable) (s : State) :
    (s.endLoad k t).deviceUpdates = s.deviceUpdates := rfl
@[simp] theorem State.endLoad_notice (k : BankId) (t : CoefTable) (s : State) :
    (s.endLoad k t).notice = s.notice := rfl
@[simp] theorem State.endLoad_class1 (k : BankId) (t : CoefTable) (s : State) :
    (s.endLoad k t).class1 = s.class1 := rfl
@[simp] theorem State.endLoad_class2 (k : BankId) (t : CoefTable) (s : State) :
    (s.endLoad k t).class2 = s.class2 := rfl
@[simp] theorem State.endLoad_class3 (k : BankId) (t : CoefTable) (s : State) :
    (s.endLoad k t).class3 = s.class3 := rfl
@[simp] theorem State.endLoad_pointer (k : BankId) (t : CoefTable) (s : State) :
    (s.endLoad k t).pointer = s.pointer := rfl
@[simp] theorem State.endLoad_granted (k : BankId) (t : CoefTable) (s : State) :
    (s.endLoad k t).granted = s.granted := rfl
@[simp] theorem State.endLoad_waitingSlate (k : BankId) (t : CoefTable) (s : State) :
    (s.endLoad k t).waitingSlate = s.waitingSlate := rfl
@[simp] theorem State.endLoad_reads (k : BankId) (t : CoefTable) (s : State) :
    (s.endLoad k t).reads = s.reads := rfl
@[simp] theorem State.endLoad_writes (k : BankId) (t : CoefTable) (s : State) :
    (s.endLoad k t).writes = s.writes := rfl
@[simp] theorem State.endLoad_heldRead (k : BankId) (t : CoefTable) (s : State) :
    (s.endLoad k t).heldRead = s.heldRead := rfl
@[simp] theorem State.endLoad_heldWrite (k : BankId) (t : CoefTable) (s : State) :
    (s.endLoad k t).heldWrite = s.heldWrite := rfl
@[simp] theorem State.endLoad_nextSerial (k : BankId) (t : CoefTable) (s : State) :
    (s.endLoad k t).nextSerial = s.nextSerial := rfl
@[simp] theorem State.endLoad_busOut (k : BankId) (t : CoefTable) (s : State) :
    (s.endLoad k t).busOut = s.busOut := rfl
@[simp] theorem State.endLoad_pending (k : BankId) (t : CoefTable) (s : State) :
    (s.endLoad k t).pending = s.pending := rfl

/-! ### requestResult -/

@[simp] theorem State.requestResult_resetting (c : CellId) (s : State) :
    (s.requestResult c).resetting = s.resetting := by
  unfold State.requestResult; split
  · rfl
  · split
    · exact State.putCell_resetting ..
    · rfl
@[simp] theorem State.requestResult_powerEdge (c : CellId) (s : State) :
    (s.requestResult c).powerEdge = s.powerEdge := by
  unfold State.requestResult; split
  · rfl
  · split
    · exact State.putCell_powerEdge ..
    · rfl
@[simp] theorem State.requestResult_resetCause (c : CellId) (s : State) :
    (s.requestResult c).resetCause = s.resetCause := by
  unfold State.requestResult; split
  · rfl
  · split
    · exact State.putCell_resetCause ..
    · rfl
@[simp] theorem State.requestResult_strap (c : CellId) (s : State) :
    (s.requestResult c).strap = s.strap := by
  unfold State.requestResult; split
  · rfl
  · split
    · exact State.putCell_strap ..
    · rfl
@[simp] theorem State.requestResult_tick (c : CellId) (s : State) :
    (s.requestResult c).tick = s.tick := by
  unfold State.requestResult; split
  · rfl
  · split
    · exact State.putCell_tick ..
    · rfl
@[simp] theorem State.requestResult_refA (c : CellId) (s : State) :
    (s.requestResult c).refA = s.refA := by
  unfold State.requestResult; split
  · rfl
  · split
    · exact State.putCell_refA ..
    · rfl
@[simp] theorem State.requestResult_refB (c : CellId) (s : State) :
    (s.requestResult c).refB = s.refB := by
  unfold State.requestResult; split
  · rfl
  · split
    · exact State.putCell_refB ..
    · rfl
@[simp] theorem State.requestResult_feeds (c : CellId) (s : State) :
    (s.requestResult c).feeds = s.feeds := by
  unfold State.requestResult; split
  · rfl
  · split
    · exact State.putCell_feeds ..
    · rfl
@[simp] theorem State.requestResult_outputs (c : CellId) (s : State) :
    (s.requestResult c).outputs = s.outputs := by
  unfold State.requestResult; split
  · rfl
  · split
    · exact State.putCell_outputs ..
    · rfl
@[simp] theorem State.requestResult_cache (c : CellId) (s : State) :
    (s.requestResult c).cache = s.cache := by
  unfold State.requestResult; split
  · rfl
  · split
    · exact State.putCell_cache ..
    · rfl
@[simp] theorem State.requestResult_banks (c : CellId) (s : State) :
    (s.requestResult c).banks = s.banks := by
  unfold State.requestResult; split
  · rfl
  · split
    · exact State.putCell_banks ..
    · rfl
@[simp] theorem State.requestResult_deviceWord (c : CellId) (s : State) :
    (s.requestResult c).deviceWord = s.deviceWord := by
  unfold State.requestResult; split
  · rfl
  · split
    · exact State.putCell_deviceWord ..
    · rfl
@[simp] theorem State.requestResult_deviceMask (c : CellId) (s : State) :
    (s.requestResult c).deviceMask = s.deviceMask := by
  unfold State.requestResult; split
  · rfl
  · split
    · exact State.putCell_deviceMask ..
    · rfl
@[simp] theorem State.requestResult_deviceUpdates (c : CellId) (s : State) :
    (s.requestResult c).deviceUpdates = s.deviceUpdates := by
  unfold State.requestResult; split
  · rfl
  · split
    · exact State.putCell_deviceUpdates ..
    · rfl
@[simp] theorem State.requestResult_notice (c : CellId) (s : State) :
    (s.requestResult c).notice = s.notice := by
  unfold State.requestResult; split
  · rfl
  · split
    · exact State.putCell_notice ..
    · rfl
@[simp] theorem State.requestResult_class1 (c : CellId) (s : State) :
    (s.requestResult c).class1 = s.class1 := by
  unfold State.requestResult; split
  · rfl
  · split
    · exact State.putCell_class1 ..
    · rfl
@[simp] theorem State.requestResult_class2 (c : CellId) (s : State) :
    (s.requestResult c).class2 = s.class2 := by
  unfold State.requestResult; split
  · rfl
  · split
    · exact State.putCell_class2 ..
    · rfl
@[simp] theorem State.requestResult_pointer (c : CellId) (s : State) :
    (s.requestResult c).pointer = s.pointer := by
  unfold State.requestResult; split
  · rfl
  · split
    · exact State.putCell_pointer ..
    · rfl
@[simp] theorem State.requestResult_granted (c : CellId) (s : State) :
    (s.requestResult c).granted = s.granted := by
  unfold State.requestResult; split
  · rfl
  · split
    · exact State.putCell_granted ..
    · rfl
@[simp] theorem State.requestResult_waitingSlate (c : CellId) (s : State) :
    (s.requestResult c).waitingSlate = s.waitingSlate := by
  unfold State.requestResult; split
  · rfl
  · split
    · exact State.putCell_waitingSlate ..
    · rfl
@[simp] theorem State.requestResult_reads (c : CellId) (s : State) :
    (s.requestResult c).reads = s.reads := by
  unfold State.requestResult; split
  · rfl
  · split
    · exact State.putCell_reads ..
    · rfl
@[simp] theorem State.requestResult_writes (c : CellId) (s : State) :
    (s.requestResult c).writes = s.writes := by
  unfold State.requestResult; split
  · rfl
  · split
    · exact State.putCell_writes ..
    · rfl
@[simp] theorem State.requestResult_heldRead (c : CellId) (s : State) :
    (s.requestResult c).heldRead = s.heldRead := by
  unfold State.requestResult; split
  · rfl
  · split
    · exact State.putCell_heldRead ..
    · rfl
@[simp] theorem State.requestResult_heldWrite (c : CellId) (s : State) :
    (s.requestResult c).heldWrite = s.heldWrite := by
  unfold State.requestResult; split
  · rfl
  · split
    · exact State.putCell_heldWrite ..
    · rfl
@[simp] theorem State.requestResult_nextSerial (c : CellId) (s : State) :
    (s.requestResult c).nextSerial = s.nextSerial := by
  unfold State.requestResult; split
  · rfl
  · split
    · exact State.putCell_nextSerial ..
    · rfl
@[simp] theorem State.requestResult_busOut (c : CellId) (s : State) :
    (s.requestResult c).busOut = s.busOut := by
  unfold State.requestResult; split
  · rfl
  · split
    · exact State.putCell_busOut ..
    · rfl
@[simp] theorem State.requestResult_pending (c : CellId) (s : State) :
    (s.requestResult c).pending = s.pending := by
  unfold State.requestResult; split
  · rfl
  · split
    · exact State.putCell_pending ..
    · rfl

/-! ### settle -/

@[simp] theorem State.settle_resetting (c : CellId) (r : ResultCode) (d : Byte) (s : State) :
    (s.settle c r d).resetting = s.resetting := by
  unfold State.settle; split
  · rfl
  · exact (State.requestResult_resetting ..).trans (State.putCell_resetting ..)
@[simp] theorem State.settle_powerEdge (c : CellId) (r : ResultCode) (d : Byte) (s : State) :
    (s.settle c r d).powerEdge = s.powerEdge := by
  unfold State.settle; split
  · rfl
  · exact (State.requestResult_powerEdge ..).trans (State.putCell_powerEdge ..)
@[simp] theorem State.settle_resetCause (c : CellId) (r : ResultCode) (d : Byte) (s : State) :
    (s.settle c r d).resetCause = s.resetCause := by
  unfold State.settle; split
  · rfl
  · exact (State.requestResult_resetCause ..).trans (State.putCell_resetCause ..)
@[simp] theorem State.settle_strap (c : CellId) (r : ResultCode) (d : Byte) (s : State) :
    (s.settle c r d).strap = s.strap := by
  unfold State.settle; split
  · rfl
  · exact (State.requestResult_strap ..).trans (State.putCell_strap ..)
@[simp] theorem State.settle_tick (c : CellId) (r : ResultCode) (d : Byte) (s : State) :
    (s.settle c r d).tick = s.tick := by
  unfold State.settle; split
  · rfl
  · exact (State.requestResult_tick ..).trans (State.putCell_tick ..)
@[simp] theorem State.settle_refA (c : CellId) (r : ResultCode) (d : Byte) (s : State) :
    (s.settle c r d).refA = s.refA := by
  unfold State.settle; split
  · rfl
  · exact (State.requestResult_refA ..).trans (State.putCell_refA ..)
@[simp] theorem State.settle_refB (c : CellId) (r : ResultCode) (d : Byte) (s : State) :
    (s.settle c r d).refB = s.refB := by
  unfold State.settle; split
  · rfl
  · exact (State.requestResult_refB ..).trans (State.putCell_refB ..)
@[simp] theorem State.settle_feeds (c : CellId) (r : ResultCode) (d : Byte) (s : State) :
    (s.settle c r d).feeds = s.feeds := by
  unfold State.settle; split
  · rfl
  · exact (State.requestResult_feeds ..).trans (State.putCell_feeds ..)
@[simp] theorem State.settle_outputs (c : CellId) (r : ResultCode) (d : Byte) (s : State) :
    (s.settle c r d).outputs = s.outputs := by
  unfold State.settle; split
  · rfl
  · exact (State.requestResult_outputs ..).trans (State.putCell_outputs ..)
@[simp] theorem State.settle_cache (c : CellId) (r : ResultCode) (d : Byte) (s : State) :
    (s.settle c r d).cache = s.cache := by
  unfold State.settle; split
  · rfl
  · exact (State.requestResult_cache ..).trans (State.putCell_cache ..)
@[simp] theorem State.settle_banks (c : CellId) (r : ResultCode) (d : Byte) (s : State) :
    (s.settle c r d).banks = s.banks := by
  unfold State.settle; split
  · rfl
  · exact (State.requestResult_banks ..).trans (State.putCell_banks ..)
@[simp] theorem State.settle_deviceWord (c : CellId) (r : ResultCode) (d : Byte) (s : State) :
    (s.settle c r d).deviceWord = s.deviceWord := by
  unfold State.settle; split
  · rfl
  · exact (State.requestResult_deviceWord ..).trans (State.putCell_deviceWord ..)
@[simp] theorem State.settle_deviceMask (c : CellId) (r : ResultCode) (d : Byte) (s : State) :
    (s.settle c r d).deviceMask = s.deviceMask := by
  unfold State.settle; split
  · rfl
  · exact (State.requestResult_deviceMask ..).trans (State.putCell_deviceMask ..)
@[simp] theorem State.settle_deviceUpdates (c : CellId) (r : ResultCode) (d : Byte) (s : State) :
    (s.settle c r d).deviceUpdates = s.deviceUpdates := by
  unfold State.settle; split
  · rfl
  · exact (State.requestResult_deviceUpdates ..).trans (State.putCell_deviceUpdates ..)
@[simp] theorem State.settle_notice (c : CellId) (r : ResultCode) (d : Byte) (s : State) :
    (s.settle c r d).notice = s.notice := by
  unfold State.settle; split
  · rfl
  · exact (State.requestResult_notice ..).trans (State.putCell_notice ..)
@[simp] theorem State.settle_class1 (c : CellId) (r : ResultCode) (d : Byte) (s : State) :
    (s.settle c r d).class1 = s.class1 := by
  unfold State.settle; split
  · rfl
  · exact (State.requestResult_class1 ..).trans (State.putCell_class1 ..)
@[simp] theorem State.settle_class2 (c : CellId) (r : ResultCode) (d : Byte) (s : State) :
    (s.settle c r d).class2 = s.class2 := by
  unfold State.settle; split
  · rfl
  · exact (State.requestResult_class2 ..).trans (State.putCell_class2 ..)
@[simp] theorem State.settle_pointer (c : CellId) (r : ResultCode) (d : Byte) (s : State) :
    (s.settle c r d).pointer = s.pointer := by
  unfold State.settle; split
  · rfl
  · exact (State.requestResult_pointer ..).trans (State.putCell_pointer ..)
@[simp] theorem State.settle_granted (c : CellId) (r : ResultCode) (d : Byte) (s : State) :
    (s.settle c r d).granted = s.granted := by
  unfold State.settle; split
  · rfl
  · exact (State.requestResult_granted ..).trans (State.putCell_granted ..)
@[simp] theorem State.settle_waitingSlate (c : CellId) (r : ResultCode) (d : Byte) (s : State) :
    (s.settle c r d).waitingSlate = s.waitingSlate := by
  unfold State.settle; split
  · rfl
  · exact (State.requestResult_waitingSlate ..).trans (State.putCell_waitingSlate ..)
@[simp] theorem State.settle_reads (c : CellId) (r : ResultCode) (d : Byte) (s : State) :
    (s.settle c r d).reads = s.reads := by
  unfold State.settle; split
  · rfl
  · exact (State.requestResult_reads ..).trans (State.putCell_reads ..)
@[simp] theorem State.settle_writes (c : CellId) (r : ResultCode) (d : Byte) (s : State) :
    (s.settle c r d).writes = s.writes := by
  unfold State.settle; split
  · rfl
  · exact (State.requestResult_writes ..).trans (State.putCell_writes ..)
@[simp] theorem State.settle_heldRead (c : CellId) (r : ResultCode) (d : Byte) (s : State) :
    (s.settle c r d).heldRead = s.heldRead := by
  unfold State.settle; split
  · rfl
  · exact (State.requestResult_heldRead ..).trans (State.putCell_heldRead ..)
@[simp] theorem State.settle_heldWrite (c : CellId) (r : ResultCode) (d : Byte) (s : State) :
    (s.settle c r d).heldWrite = s.heldWrite := by
  unfold State.settle; split
  · rfl
  · exact (State.requestResult_heldWrite ..).trans (State.putCell_heldWrite ..)
@[simp] theorem State.settle_nextSerial (c : CellId) (r : ResultCode) (d : Byte) (s : State) :
    (s.settle c r d).nextSerial = s.nextSerial := by
  unfold State.settle; split
  · rfl
  · exact (State.requestResult_nextSerial ..).trans (State.putCell_nextSerial ..)
@[simp] theorem State.settle_busOut (c : CellId) (r : ResultCode) (d : Byte) (s : State) :
    (s.settle c r d).busOut = s.busOut := by
  unfold State.settle; split
  · rfl
  · exact (State.requestResult_busOut ..).trans (State.putCell_busOut ..)
@[simp] theorem State.settle_pending (c : CellId) (r : ResultCode) (d : Byte) (s : State) :
    (s.settle c r d).pending = s.pending := by
  unfold State.settle; split
  · rfl
  · exact (State.requestResult_pending ..).trans (State.putCell_pending ..)

/-! ### What the updates write -/

@[simp] theorem State.putFeed_feeds (f : FeedId) (x : Feed) (s : State) :
    (s.putFeed f x).feeds = s.feeds.set f x := by simp only [State.putFeed]; split <;> simp
@[simp] theorem State.modifyFeed_feeds (f : FeedId) (g : Feed → Feed) (s : State) :
    (s.modifyFeed f g).feeds = s.feeds.set f (g s.feeds[f]) := by simp [State.modifyFeed]
@[simp] theorem State.putOutput_outputs (o : OutId) (x : Output) (s : State) :
    (s.putOutput o x).outputs = s.outputs.set o x := by simp only [State.putOutput]; split <;> simp
@[simp] theorem State.modifyOutput_outputs (o : OutId) (g : Output → Output) (s : State) :
    (s.modifyOutput o g).outputs = s.outputs.set o (g s.outputs[o]) := by simp [State.modifyOutput]
@[simp] theorem State.modifyModes_outputs (o : OutId) (g : Modes → Modes) (s : State) :
    (s.modifyModes o g).outputs =
      s.outputs.set o { s.outputs[o] with modes := g s.outputs[o].modes } := by simp [State.modifyModes]
@[simp] theorem State.modifyContexts_outputs (o : OutId) (g : Contexts → Contexts) (s : State) :
    (s.modifyContexts o g).outputs =
      s.outputs.set o { s.outputs[o] with ctx := g s.outputs[o].ctx } := by simp [State.modifyContexts]
@[simp] theorem State.modifyBuilder_outputs (o : OutId) (g : LineBuilder → LineBuilder) (s : State) :
    (s.modifyBuilder o g).outputs =
      s.outputs.set o { s.outputs[o] with builder := g s.outputs[o].builder } := by
  simp [State.modifyBuilder]
@[simp] theorem State.putCell_cells (c : CellId) (x : Cell) (s : State) :
    (s.putCell c x).cells = s.cells.set c x := by simp only [State.putCell]; split <;> simp
@[simp] theorem State.forward_class2 (b d : Burst) (k : BusKind) (l m : List CellId) (s : State) :
    (s.forward b d k l m).class2 = s.class2 ++ [⟨s.nextSerial, d, k, l, m⟩] := by simp [State.forward]
@[simp] theorem State.forward_nextSerial (b d : Burst) (k : BusKind) (l m : List CellId) (s : State) :
    (s.forward b d k l m).nextSerial = s.nextSerial + 1 := by
  simp only [State.forward, State.openBurst]; split <;> rfl
@[simp] theorem State.putDeviceWord_deviceWord (w : Conds) (s : State) :
    (s.putDeviceWord w).deviceWord = (w &&& deviceConds) ||| s.summaries := by
  simp only [State.putDeviceWord]; split <;> simp
@[simp] theorem State.putDeviceWord_notice (w : Conds) (s : State) :
    (s.putDeviceWord w).notice =
      decide (((w &&& deviceConds) ||| s.summaries) &&& s.deviceMask ≠ 0) := by
  simp only [State.putDeviceWord]; split <;> simp

end Sys2Proof.Machine
end

