-- ==== Sys2Proof/Laws/Frames.lean ====
section
/-! SUPPORT. What each shared operation can do, said once: the pieces of the state that it may change, and
what it makes of them. -/

namespace Sys2Proof.Machine

/-- An element that a write does not name stays. -/
theorem vector_set_other {α : Type} {n : Nat} (v : Vector α n) (i j : Fin n) (x : α) (h : ¬ j = i) :
    (v.set i.val x i.isLt)[j.val] = v[j.val] :=
  Vector.getElem_set_ne i.isLt j.isLt fun e => h (Fin.ext e.symm)

/-! ## Frames compose -/

theorem State.same_refl (s : State) (p : Part) : s.same s p := by
  cases p <;> simp [State.same]

theorem State.same_trans {s t u : State} {p : Part} (h : s.same t p) (k : t.same u p) : s.same u p := by
  cases p <;> simp only [State.same] at * <;> simp_all

theorem State.changesOnly_refl (ps : List Part) (s : State) : s.changesOnly ps s :=
  fun p _ => s.same_refl p

theorem State.changesOnly_mono {ps qs : List Part} {s t : State} (h : s.changesOnly ps t)
    (sub : ps ⊆ qs) : s.changesOnly qs t :=
  fun p hp => h p fun hm => hp (sub hm)

theorem State.changesOnly_trans {ps : List Part} {s t u : State} (h : s.changesOnly ps t)
    (k : t.changesOnly ps u) : s.changesOnly ps u :=
  fun p hp => State.same_trans (h p hp) (k p hp)

/-- A fold changes only what each of its steps changes. -/
theorem State.changesOnly_foldl {α : Type} (ps : List Part) (g : State → α → State)
    (h : ∀ (s : State) (a : α), s.changesOnly ps (g s a)) : ∀ (l : List α) (s : State), s.changesOnly ps (l.foldl g s)
  | [], s => s.changesOnly_refl ps
  | a :: l, s => State.changesOnly_trans (h s a) (State.changesOnly_foldl ps g h l (g s a))

/-! ## Marks and the notice line -/

theorem State.mark_changesOnly (r : RecordSel) (s : State) : s.changesOnly [.class3] (s.mark r) := by
  intro p hp
  cases p <;> simp_all [State.same, State.ref]

theorem State.mark_marked (r : RecordSel) (s : State) : (s.mark r).marked r := by
  unfold State.marked State.mark
  split <;> simp_all

/-- A mark never takes a request away. -/
theorem State.mark_keeps {h : Housekeeping} (r : RecordSel) {s : State} (m : h ∈ s.class3) :
    h ∈ (s.mark r).class3 := by
  unfold State.mark
  split <;> simp_all

theorem State.putDeviceWord_changesOnly (w : Conds) (s : State) :
    s.changesOnly [.deviceWord, .class3] (s.putDeviceWord w) := by
  intro p hp
  cases p <;> simp_all [State.same, State.ref]

theorem State.refresh_changesOnly (s : State) : s.changesOnly [.deviceWord, .class3] s.refresh :=
  s.putDeviceWord_changesOnly _

theorem State.setDevice_changesOnly (c : Conds) (s : State) :
    s.changesOnly [.deviceWord, .class3] (s.setDevice c) :=
  s.putDeviceWord_changesOnly _

/-- The notice line and the summary positions hold after every write of the device word (R191, R192). -/
theorem State.putDeviceWord_noticeHolds (w : Conds) (s : State) : (s.putDeviceWord w).noticeHolds := by
  have h : (s.putDeviceWord w).summaries = s.summaries := by simp [State.summaries]
  refine ⟨?_, ?_⟩
  · rw [h]
    simp only [State.putDeviceWord_deviceWord]
    have : s.summaries &&& deviceConds = 0 := by
      simp only [State.summaries, summaryOf, deviceConds, bit]
      repeat' split
      all_goals decide
    generalize s.summaries = x at *
    have e : ((w &&& deviceConds ||| x) &&& deviceConds) =
        (w &&& deviceConds) ||| (x &&& deviceConds) := by
      apply BitVec.eq_of_getLsbD_eq
      intro i _
      simp only [BitVec.getLsbD_and, BitVec.getLsbD_or]
      cases w.getLsbD i <;> cases deviceConds.getLsbD i <;> cases x.getLsbD i <;> rfl
    rw [e, this]
    simp
  · simp

theorem State.refresh_noticeHolds (s : State) : s.refresh.noticeHolds := s.putDeviceWord_noticeHolds _

/-- A refresh of a state whose summary positions and notice line hold changes nothing. -/
theorem State.refresh_of_noticeHolds {s : State} (h : s.noticeHolds) : s.refresh = s := by
  obtain ⟨h1, h2⟩ := h
  simp only [State.refresh, State.putDeviceWord, ← h1, ← h2, if_true]

/-- Class 3 is kept, with no mark behind it, where it is the same list. -/
theorem State.onlyMarks_of_class3 {ps : List Part} {s t : State} (h : t.class3 = s.class3) :
    s.onlyMarks ps t :=
  ⟨[], by simp [h], by simp⟩

theorem State.onlyMarks_trans {ps : List Part} {s t u : State} (h : s.onlyMarks ps t)
    (k : t.onlyMarks ps u) : s.onlyMarks ps u := by
  obtain ⟨rs, e, hr⟩ := h
  obtain ⟨rs', e', hr'⟩ := k
  exact ⟨rs ++ rs', by simp [e, e'], fun r m => (List.mem_append.mp m).elim (hr r) (hr' r)⟩

theorem State.mark_onlyMarks {ps : List Part} (r : RecordSel) (s : State) (h : r = .device ∨ r.part ∈ ps) :
    s.onlyMarks ps (s.mark r) := by
  unfold State.mark
  split
  · exact State.onlyMarks_of_class3 rfl
  · exact ⟨[r], rfl, by simpa using h⟩

/-! ## The held contexts (R77) -/

@[simp] theorem Contexts.held_setHeld (c : Contexts) (p : Parity) (x : Option Context) :
    (c.setHeld p x).held p = x := by cases p <;> rfl

theorem Contexts.held_setHeld_other {p q : Parity} (h : q ≠ p) (c : Contexts) (x : Option Context) :
    (c.setHeld p x).held q = c.held q := by cases p <;> cases q <;> first | rfl | exact absurd rfl h

@[simp] theorem Contexts.setHeld_retired (c : Contexts) (p : Parity) (x : Option Context) :
    (c.setHeld p x).retired = c.retired := by cases p <;> rfl

@[simp] theorem Contexts.setHeld_frozen (c : Contexts) (p : Parity) (x : Option Context) :
    (c.setHeld p x).frozen = c.frozen := by cases p <;> rfl

/-- The context that a build uses: the retired one, or else the one held for its parity and no other. -/
theorem Contexts.changeUser_cases (p : Parity) (g : Context → Context) (c : Contexts) :
    (∃ x, c.retired = some x ∧ c.changeUser p g = { c with retired := some (g x) }) ∨
      (c.retired = none ∧ (c.changeUser p g).retired = none ∧
        (c.changeUser p g).held p = (c.held p).map g ∧
        ∀ q, q ≠ p → (c.changeUser p g).held q = c.held q) := by
  unfold Contexts.changeUser
  cases h : c.retired with
  | some x => exact .inl ⟨x, rfl, rfl⟩
  | none =>
    exact .inr ⟨rfl, by simp [Contexts.changeHeld, h], by simp [Contexts.changeHeld],
      fun q hq => Contexts.held_setHeld_other hq _ _⟩

/-! ## Feeds, outputs, cells -/

theorem State.putFeed_changesOnly (f : FeedId) (x : Feed) (s : State) :
    s.changesOnly [.feed f, .class3, .deviceWord] (s.putFeed f x) := by
  intro p hp
  cases p <;> simp_all [State.same, State.ref, vector_set_other]

theorem State.modifyFeed_changesOnly (f : FeedId) (g : Feed → Feed) (s : State) :
    s.changesOnly [.feed f, .class3, .deviceWord] (s.modifyFeed f g) :=
  s.putFeed_changesOnly f _

theorem State.putOutput_changesOnly (o : OutId) (x : Output) (s : State) :
    s.changesOnly [.output o, .class3, .deviceWord] (s.putOutput o x) := by
  intro p hp
  cases p <;> simp_all [State.same, State.ref, vector_set_other]

theorem State.modifyOutput_changesOnly (o : OutId) (g : Output → Output) (s : State) :
    s.changesOnly [.output o, .class3, .deviceWord] (s.modifyOutput o g) :=
  s.putOutput_changesOnly o _

theorem State.putFeed_noticeHolds (f : FeedId) (x : Feed) (s : State) : (s.putFeed f x).noticeHolds :=
  State.refresh_noticeHolds _

theorem State.putOutput_noticeHolds (o : OutId) (x : Output) (s : State) :
    (s.putOutput o x).noticeHolds :=
  State.refresh_noticeHolds _

theorem State.putCell_changesOnly (c : CellId) (x : Cell) (s : State) :
    s.changesOnly [.cell c, .class3] (s.putCell c x) := by
  intro p hp
  cases p <;> simp_all [State.same, State.ref, vector_set_other]

theorem State.requestResult_changesOnly (c : CellId) (s : State) :
    s.changesOnly [.cell c, .class3] (s.requestResult c) := by
  unfold State.requestResult
  split
  · exact s.changesOnly_refl _
  · split
    · rename_i a _ _ _ _ _ _ _ _
      refine State.changesOnly_trans (s.putCell_changesOnly c (some { a with stage := .waiting })) ?_
      intro p hp
      cases p <;> simp_all [State.same, State.ref]
    · exact s.changesOnly_refl _

theorem State.settle_changesOnly (c : CellId) (r : ResultCode) (d : Byte) (s : State) :
    s.changesOnly [.cell c, .class3] (s.settle c r d) := by
  unfold State.settle
  split
  · exact s.changesOnly_refl _
  · exact State.changesOnly_trans (s.putCell_changesOnly c _) (State.requestResult_changesOnly c _)

/-- A settled result whose host write has not been answered is not requested yet (R170). -/
theorem State.settle_cell {c : CellId} {r : ResultCode} {d : Byte} {s : State} {a : ActiveCommand}
    (h : s.cells[c] = some a) (w : a.hostAnswered = false) :
    (s.settle c r d).cells = s.cells.set c (some { a with settled := some (r, d) }) := by
  simp only [State.settle, h]
  simp [State.requestResult, w]

/-- A command checked and carried out changes what its effect changes, and its cell (R169). -/
theorem State.judge_changesOnly {ps : List Part} (c : CellId) (refusal : Refused) (act : State → State)
    (s : State) (h : s.changesOnly ps (act s)) :
    s.changesOnly ([.cell c, .class3] ++ ps) (s.judge c refusal act) := by
  unfold State.judge
  split
  · exact State.changesOnly_mono (s.settle_changesOnly c _ _) (List.subset_append_left _ _)
  · exact State.changesOnly_trans (State.changesOnly_mono h (List.subset_append_right _ _))
      (State.changesOnly_mono (State.settle_changesOnly c _ _ _) (List.subset_append_left _ _))

/-- A feed event reaches outputs alone (R42, R132). -/
theorem State.feedEvent_changesOnly (f : FeedId) (e : FeedEvent) (s : State) :
    s.changesOnly ([.class3, .deviceWord] ++ outputParts) (s.feedEvent f e) := by
  unfold State.feedEvent
  refine State.changesOnly_foldl _ _ (fun s o => ?_) _ _
  split
  · refine State.changesOnly_mono (State.modifyOutput_changesOnly o _ s) ?_
    intro p hp
    simp only [List.mem_cons, List.not_mem_nil, or_false] at hp
    obtain rfl | rfl | rfl := hp
    · fin_cases o <;> simp [outputParts]
    · simp
    · simp
  · exact s.changesOnly_refl _

/-- Pins change records of feeds alone (R75, R76). -/
theorem State.changePin_changesOnly (g : Nat → Nat) (r : RecordRef) (s : State) :
    s.changesOnly ([.class3, .deviceWord] ++ feedParts) (s.changePin g r) := by
  refine State.changesOnly_mono (State.modifyFeed_changesOnly r.feed _ s) ?_
  intro p hp
  simp only [List.mem_cons, List.not_mem_nil, or_false] at hp
  obtain rfl | rfl | rfl := hp
  · generalize r.feed = f
    fin_cases f <;> simp [feedParts]
  · simp
  · simp

theorem State.pin_changesOnly (x : Context) (s : State) :
    s.changesOnly ([.class3, .deviceWord] ++ feedParts) (s.pin x) :=
  State.changesOnly_foldl _ _ (fun s r => s.changePin_changesOnly _ r) _ _

theorem State.unpin_changesOnly (x : Context) (s : State) :
    s.changesOnly ([.class3, .deviceWord] ++ feedParts) (s.unpin x) :=
  State.changesOnly_foldl _ _ (fun s r => s.changePin_changesOnly _ r) _ _

/-! ## The Line Cache, the Bus Port and the queues -/

theorem State.notify_changesOnly (k : CacheKey → Bool) (s : State) :
    s.changesOnly [.cache] (s.notify k) := by
  intro p hp
  cases p <;> simp_all [State.same, State.ref]

theorem State.forward_changesOnly (b out : Burst) (k : BusKind) (l m : List CellId) (s : State) :
    s.changesOnly [.reads, .writes, .serial, .class2] (s.forward b out k l m) := by
  intro p hp
  cases p <;> simp_all [State.same, State.ref]

/-- Forwarding without cells is what the statements call `passedOn`. -/
theorem State.forward_eq_passedOn (b out : Burst) (k : BusKind) (s : State) :
    s.forward b out k [] [] = s.passedOn b out k := by
  simp only [State.forward, State.openBurst, State.openWrite, State.openRead, State.passedOn]
  split <;> simp_all

theorem State.flush_changesOnly (s : State) : s.changesOnly [.reads, .writes, .busOut] s.flush := by
  intro p hp
  cases p <;> simp_all [State.same, State.ref]

theorem State.request1_changesOnly (o : OutId) (fs : List Fetch) (s : State) :
    s.changesOnly [.class1 o] (s.request1 o fs) := by
  intro p hp
  cases p <;> simp_all [State.same, State.ref, State.request1, vector_set_other]

/-- A lookup changes the Line Cache and the output's class 1 queue alone (R122). -/
theorem State.lookup_changesOnly (o : OutId) (b : Build) (k : CacheKey) (s : State) :
    s.changesOnly [.cache, .class1 o] (s.lookup o b k).1 := by
  unfold State.lookup
  split
  · intro p hp
    cases p <;> simp_all [State.same, State.ref]
  · refine State.changesOnly_trans (t := { s with cache := _ }) ?_
      (State.changesOnly_mono (State.request1_changesOnly o _ _) (by simp))
    intro p hp
    cases p <;> simp_all [State.same, State.ref]
  · exact s.changesOnly_refl _

theorem State.lookupAll_changesOnly (o : OutId) (b : Build) :
    ∀ (ks : List CacheKey) (s : State), s.changesOnly [.cache, .class1 o] (s.lookupAll o b ks).1
  | [], s => s.changesOnly_refl _
  | k :: ks, s =>
    State.changesOnly_trans (s.lookup_changesOnly o b k) (State.lookupAll_changesOnly o b ks _)

/-- A trace entry joins class 3 or replaces an earlier one there (R83). -/
theorem State.queueTrace_changesOnly (o : OutId) (i : Nat) (bytes : List Byte) (s : State) :
    s.changesOnly [.class3] (s.queueTrace o i bytes) := by
  unfold State.queueTrace
  split <;> intro p hp <;> cases p <;> simp_all [State.same, State.ref]

theorem State.queueTrace_mem (o : OutId) (i : Nat) (bytes : List Byte) (s : State) :
    .trace o i bytes ∈ (s.queueTrace o i bytes).class3 := by
  unfold State.queueTrace
  split
  · rename_i h
    obtain ⟨r, hr, ht⟩ := List.any_eq_true.mp h
    exact List.mem_map.mpr ⟨r, hr, by simp [ht]⟩
  · simp

/-! ## Builds and latches -/

/-- A build that starts changes its output, the Line Cache and its class 1 queue (R115). -/
theorem State.startBuild_changesOnly (o : OutId) (y : Nat) (s : State) :
    s.changesOnly [.output o, .cache, .class1 o, .class3, .deviceWord] (s.startBuild o y) := by
  unfold State.startBuild
  simp only
  split
  · exact s.changesOnly_refl _
  · split
    · split
      · refine State.changesOnly_trans
          (State.changesOnly_mono (State.lookupAll_changesOnly o _ _ s) ?_)
          (State.changesOnly_mono (State.modifyOutput_changesOnly o _ _) ?_)
        · intro p hp; simp_all; tauto
        · intro p hp; simp_all; tauto
      · exact s.changesOnly_refl _
    · exact s.changesOnly_refl _

theorem State.retire_changesOnly (o : OutId) (x : Context) (s : State) :
    s.changesOnly ([.output o, .class3, .deviceWord] ++ feedParts) (s.retire o x) := by
  unfold State.retire
  simp only
  split
  · exact State.changesOnly_trans
      (State.changesOnly_mono (State.modifyOutput_changesOnly o _ s) (by simp))
      (State.changesOnly_mono (State.unpin_changesOnly x _) (by simp [feedParts]))
  · exact State.changesOnly_trans
      (State.changesOnly_mono (State.modifyOutput_changesOnly o _ s) (by simp))
      (State.changesOnly_mono (State.modifyOutput_changesOnly o _ _) (by simp))

theorem State.makeFrozen_changesOnly (o : OutId) (s : State) :
    s.changesOnly ([.output o, .class3, .deviceWord] ++ feedParts) (s.makeFrozen o) := by
  unfold State.makeFrozen
  simp only
  split
  · exact s.changesOnly_refl _
  · exact State.changesOnly_trans
      (State.changesOnly_mono (State.pin_changesOnly _ s) (by simp [feedParts]))
      (State.changesOnly_mono (State.modifyOutput_changesOnly o _ _) (by simp))

theorem State.dropFrozen_changesOnly (o : OutId) (s : State) :
    s.changesOnly ([.output o, .class3, .deviceWord] ++ feedParts) (s.dropFrozen o) := by
  unfold State.dropFrozen
  split
  · exact s.changesOnly_refl _
  · exact State.changesOnly_trans
      (State.changesOnly_mono (State.unpin_changesOnly _ s) (by simp [feedParts]))
      (State.changesOnly_mono (State.modifyOutput_changesOnly o _ _) (by simp))

theorem State.frameWork_changesOnly (o : OutId) (c : OutputConfig) (p : Pulse) (s : State) :
    s.changesOnly ([.output o, .class3, .deviceWord] ++ feedParts) (s.frameWork o c p) := by
  have m : ∀ (t : State) (g : Output → Output),
      t.changesOnly ([.output o, .class3, .deviceWord] ++ feedParts) (t.modifyOutput o g) :=
    fun t g => State.changesOnly_mono (t.modifyOutput_changesOnly o g) (by simp)
  unfold State.frameWork
  split
  · refine State.changesOnly_trans ?_ (m _ _)
    unfold State.frameBoundary
    refine State.changesOnly_trans (State.changesOnly_trans (m s Output.applyPending) ?_) (m _ _)
    unfold State.refreeze
    simp only
    split
    · exact State.makeFrozen_changesOnly o _
    · split
      · exact State.dropFrozen_changesOnly o _
      · exact State.changesOnly_refl _ _
  · exact s.changesOnly_refl _

/-- A latch changes its output, the pins of records, the class 3 queue and the device word (R63). -/
theorem State.latch_changesOnly (o : OutId) (p : Pulse) (s : State) :
    s.changesOnly ([.output o, .class3, .deviceWord] ++ feedParts) (s.latch o p) := by
  have m : ∀ (t : State) (g : Output → Output),
      t.changesOnly ([.output o, .class3, .deviceWord] ++ feedParts) (t.modifyOutput o g) :=
    fun t g => State.changesOnly_mono (t.modifyOutput_changesOnly o g) (by simp)
  unfold State.latch
  split
  · exact s.changesOnly_refl _
  · refine State.changesOnly_trans ?_ (State.changesOnly_mono (State.mark_changesOnly _ _) (by simp))
    refine State.changesOnly_trans ?_
      (State.changesOnly_mono (State.queueTrace_changesOnly _ _ _ _) (by simp))
    refine State.changesOnly_trans ?_ (m _ _)
    have two : ∀ (c : OutputConfig) (x : Context), s.changesOnly
        ([.output o, .class3, .deviceWord] ++ feedParts)
        (((s.frameWork o c p).pin x).modifyContexts o (Contexts.install x p)) := fun c x =>
      State.changesOnly_trans (s.frameWork_changesOnly o c p)
        (State.changesOnly_trans
          (State.changesOnly_mono (State.pin_changesOnly x _) (by simp [feedParts])) (m _ _))
    split
    · exact State.changesOnly_trans (two _ _) (State.retire_changesOnly o _ _)
    · exact two _ _

end Sys2Proof.Machine
end

