-- ==== Sys2Proof/Tests/Slice0.lean ====
section
/-! SUPPORT. Tests of the model against the manual's worked examples, the smoke tests of `Instr.wf`, and
for each statement a state and operands that meet its hypotheses together. -/

namespace Sys2Proof.Tests

open Sys2Proof Sys2Proof.Machine

/- The kernel evaluates the tests one after the other: side by side they would need a thread each. -/
set_option Elab.async false

/-! ## The scene: a small feed, a small output, and bursts -/

/-- The state after a step that answers next. -/
def after (i : Instr) (s : State) : State :=
  match exec i s with
  | .next t => t
  | .fault _ => s
  | .refused _ => s

/-- Whether a step answers next. -/
def completes (i : Instr) (s : State) : Bool :=
  match exec i s with
  | .next _ => true
  | .fault _ => false
  | .refused _ => false

theorem exec_eq_after {i : Instr} {s : State} (h : completes i s = true) :
    exec i s = .next (after i s) := by
  unfold completes at h
  unfold after
  split at h <;> simp_all

/-- A running part with nothing requested. -/
def quiet : State := { State.reset with class3 := [] }

/-- A whole-cell write of cell 5 with ID 9 and tag 2CH. -/
def cell (target : Nat) (w1 w2 w3 w4 w5 w6 : Word) : CellWrite :=
  ⟨9, 5, BitVec.ofNat 8 target, 0x2C, 0, w1, w2, w3, w4, w5, w6, 0⟩

/-- W 256, 128 lines, P25, 3 slots, stride 1,024; windows of 32 pages. -/
def feedConfig : FeedConfig :=
  ⟨256, 128, .p25, none, 3, 1024, 0x1000, 0x2000, 2, 5, 3, 2⟩

/-- The words of CONFIGURE_FEED that give it. -/
def feedCell : CellWrite :=
  cell 0 0x00800100 0x05030002 0x03020400 0x00001000 0x00002000 2

/-- The same geometry as an output bound to feed 0, with REFA. -/
def outputConfig : OutputConfig :=
  ⟨0, 256, 128, .p25, none, .refA, 1024, 0x3000, 0, .blend, .narrow, 0⟩

def outputCell : CellWrite :=
  cell 1 0x00000200 0x00800100 0x00000400 0x00003000 0 0x3FF80000

/-- Feed 0 configured and DISABLED. -/
def offFeed : Feed := Feed.configured feedConfig Feed.initial

/-- Feed 0 LOCKED and CAPTURING in slot 0, where record 7 is FILLING. -/
def onFeed : Feed :=
  { offFeed with
    phase := .capturing
    current := some 0
    mostRecent := some 0
    history := [⟨6, 1, .whole, 256, .complete, [], 128, 0⟩, ⟨7, 0, .whole, 25600, .filling, [], 0, 0⟩]
    sampleCounter := 8
    lastSample := some 7
    cadence :=
      { offFeed.cadence with
        state := .locked, period := 276480000, lastRaw := 100, lastSmoothed := 25600
        lossTimer := some 9 } }

def withFeed (x : Feed) (s : State) : State := { s with feeds := s.feeds.set 0 x }
def withOutput (x : Output) (s : State) : State := { s with outputs := s.outputs.set 1 x }

/-- Output 1 configured and STOPPED. -/
def stoppedOutput : Output :=
  Output.configured outputConfig ⟨100, 200, 300⟩ Output.initial

/-- A CONVERT context on record 6. -/
def held : Context :=
  ⟨4, .convert, some ⟨0, 6, 1, .whole, 256⟩, some ⟨0, 6, 1, .whole, 256⟩, 0, Flags.clear, .whole, 3, 0,
    2, 0⟩

/-- Output 1 RUNNING with that context, its generator at zero. -/
def runningOutput : Output :=
  { stoppedOutput with
    state := .running
    gen := ⟨true, 0, .whole⟩
    modes := { stoppedOutput.modes with mode := .convert }
    ctx := { stoppedOutput.ctx with heldWhole := some held, nextId := 5, counter := 4 } }

def capturing : State := withFeed onFeed quiet
def running : State := withOutput runningOutput capturing

/-- An INCR burst of 4-byte beats with every strobe set. -/
def write (id a n : Nat) : Burst :=
  ⟨true, BitVec.ofNat 8 id, BitVec.ofNat 40 a, .incr, 2, n / 4, true, 0, 0, List.replicate n 0x5A,
    List.replicate n true⟩

def read (id a n : Nat) : Burst :=
  ⟨false, BitVec.ofNat 8 id, BitVec.ofNat 40 a, .incr, 2, n / 4, false, 0, 0, [], []⟩

def inWindow (x : Nat) : Nat := 0x2000000 + x
def inSlots (x : Nat) : Nat := 0x1000000 + x
def inOutput (x : Nat) : Nat := 0x3000000 + x

/-! ## Well-formedness -/

theorem test_wf_accepts : (Instr.ingestWrite (write 3 (inWindow 0) 8)).wf = true := by decide +kernel
theorem test_wf_refuses_no_beats : (Instr.passthrough (read 3 0 0)).wf = false := by decide +kernel
theorem test_wf_refuses_a_long_wrap :
    (Instr.refusedBurst { read 3 (inWindow 0) 68 with kind := .wrap }).wf = false := by decide +kernel
theorem test_wf_refuses_a_page_crossing : (Instr.passthrough (read 3 0xFFC 8)).wf = false := by
  decide +kernel
theorem test_wf_refuses_missing_strobes :
    (Instr.passthrough { write 3 0 8 with strobes := [] }).wf = false := by decide +kernel
theorem test_wf_refuses_missing_data :
    (Instr.passthrough { write 3 0 8 with data := [], strobes := [] }).wf = false := by decide +kernel
theorem test_wf_refuses_data_of_a_read :
    (Instr.passthrough { read 3 0 4 with data := [0], strobes := [true] }).wf = false := by
  decide +kernel
theorem test_wf_refuses_a_known_code : (Instr.unknownCommand 16 feedCell).wf = false := by
  decide +kernel
theorem test_wf_refuses_a_write_as_read : (Instr.ingestRead (write 3 0 8)).wf = false := by
  decide +kernel
theorem test_wf_refuses_an_incr_as_refused : (Instr.refusedBurst (read 3 0 8)).wf = false := by
  decide +kernel
theorem test_wf_refuses_a_private_id : (Instr.forwardedResponse (.write 256 .okay)).wf = false := by
  decide +kernel
theorem test_wf_refuses_an_empty_answer : (Instr.coefficientLoadCompletion []).wf = false := by
  decide +kernel

/-! ## The manual's examples -/

/-- Release of reset after power-up, with straps low, is the machine after reset (R199, R200). -/
theorem test_power_up : after (.resetRelease 0) (after .powerUp quiet) = State.reset := by
  decide +kernel

/-- The P25 feed of 2.10 and 2.11. -/
def tracked : FeedConfig := ⟨1920, 1080, .p25, none, 4, 7680, 0x10000, 0x9000, 2, 5, 3, 2⟩

def starts (ts : List Tick) : Cadence :=
  ts.foldl (fun k s => (sampleStart tracked s (some k.lastSmoothed) k).cadence)
    (Cadence.enabled tracked { Cadence.initial with irregularLeft := 2 })

/-- 2.11, steps 2 to 4: the stamps, E, and the lock. -/
theorem test_lock :
    (starts [10000000, 11080270]).lastSmoothed = 2836488640 ∧
      (starts [10000000, 11080270]).period = 276481080 ∧
      (starts [10000000, 11080270, 12159800]).lastSmoothed = 3112962105 ∧
      (starts [10000000, 11080270, 12159800]).period = 276480128 ∧
      (starts [10000000, 11080270, 12159800]).state = .locked := by decide +kernel

/-- 2.11, steps 5 to 7: two irregular intervals and the return. -/
theorem test_irregular :
    (starts [10000000, 11080270, 12159800, 13400000, 14319800]).irregularLeft = 0 ∧
      (starts [10000000, 11080270, 12159800, 13400000, 14319800, 15399800]).lastSmoothed
        = 3942348912 ∧
      (starts [10000000, 11080270, 12159800, 13400000, 14319800, 15399800]).period = 276480126 := by
  decide +kernel

/-- 2.12: a stamp that would go back. -/
theorem test_monotonic_stamp :
    (sampleStart tracked 12159900 (some 3112962105)
      (starts [10000000, 11080270, 12159800])).stamp = 3112962361 := by decide +kernel

/-- A stamp of whole ticks. -/
def whole (t : Nat) : Stamp := BitVec.ofNat 48 (t * 256)

/-- The weights of 4.12, and of latches 1005 and 1007 of 4.13. -/
theorem test_weights :
    blendWeight (whole 50000000) (whole 50540000) (whole 50469550) = 223 ∧
      blendWeight (whole 50540000) (whole 51080000) (whole 50920000) = 180 ∧
      blendWeight (whole 51080000) (whole 51620000) (whole 51370450) = 138 ∧
      blendWeight (whole 51620000) (whole 52160000) (whole 51820900) = 95 ∧
      blendWeight (whole 52160000) (whole 52760000) (whole 52721800) = 240 ∧
      blendWeight (whole 52760000) (whole 53860000) (whole 53622700) = 201 ∧
      isGap 540000 (whole 52760000) (whole 53860000) = true ∧
      isGap 540000 (whole 52160000) (whole 52760000) = false := by decide +kernel

/-- 5.10: the edges of 480 lines to 576. -/
theorem test_edges :
    ([0, 1, 2, 3].map (tapLine 480 576 0 .whole)) = [0, 0, 0, 1] ∧ phaseOf 480 576 0 .whole = 29 ∧
      ([0, 1, 2, 3].map (tapLine 480 576 575 .whole)) = [478, 479, 479, 479] ∧
      phaseOf 480 576 575 .whole = 2 := by decide +kernel

/-- 5.11: rounding and clipping. -/
theorem test_rounding :
    roundSum (temporalSum 0 (verticalSum ⟨-6, 248, 16, -2⟩ 100 64 4 4) 0) = 60 ∧
      roundSum (temporalSum 0 (verticalSum ⟨-6, 248, 16, -2⟩ 1023 4 4 4) 0) = -20 ∧
      roundSum (temporalSum 0 (verticalSum ⟨-6, 248, 16, -2⟩ 0 4 0 0) 0) = 4 ∧
      clampComponent .narrow true 60 = 64 ∧ clampComponent .full true (-20) = 4 := by decide +kernel

/-- R206: phase 3 of −6, 248, 16, −2 in little-endian bytes. -/
theorem test_coefficients :
    [0, 2, 4, 6].map (coefAt [0xFA, 0xFF, 0xF8, 0x00, 0x10, 0x00, 0xFE, 0xFF]) = [-6, 248, 16, -2] := by
  decide +kernel

def slated (m : Modes) : Modes × Bool := (m.inject.1, m.inject.2.1)

/-- 7.11: a periodic slate with n = 2, its third and fourth frames. -/
theorem test_periodic :
    let m := Modes.ready .periodic 2 Modes.initial
    let m3 := (slated (slated m).1).1
    (slated m).2 = false ∧ (slated m3).2 = true ∧ (slated m3).1.injectLeft = 2 := by decide +kernel

/-- 7.11: a one-shot slate with n = 1. -/
theorem test_one_shot :
    let m := Modes.feedEvent .locked (Modes.ready .oneShot 1 Modes.initial)
    (slated m).2 = false ∧ (slated (slated m).1).2 = true ∧
      (slated (slated m).1).1.injection = .none_ := by decide +kernel

/-- 11.7: the CONFIGURE_OUTPUT example settles DONE; with a reference byte of 1 it is BAD_FIELD, detail 6. -/
def exampleCell (w1 : Word) : CellWrite :=
  cell 1 w1 0x024002D0 0x00000B40 0x00012000 0x000DBBA0 0x3FF80000

theorem test_configure_output :
    (after (.configureOutput (exampleCell 0x00000800)) quiet).cells[5] =
        settledCell (exampleCell 0) .done 0 ∧
      (after (.configureOutput (exampleCell 0x00000800)) quiet).outputs[1].modes.fill = ⟨64, 512, 960⟩ ∧
      (after (.configureOutput (exampleCell 0x01000800)) quiet).cells[5] =
        settledCell (exampleCell 0) .badField 6 := by decide +kernel

/-- 11.7: the two result words. -/
theorem test_result_words :
    resultWord .done 0x2C 0 = 0x00002C01 ∧ resultWord .badField 0x2C 6 = 0x00062C03 := by decide +kernel

/-- 8.6: grants 1 to 5, with output 1's fill joining after the third. -/
def fill (n : Nat) : Fetch := .fill 0 (BitVec.ofNat 40 n) 256

def eightSix : State :=
  { quiet with
    pointer := 1
    class1 := #v[[fill 1, fill 2], [], [fill 3], [.slate 0 0 256]] }

def grant (s : State) : State := after .memoryPortGrant s

theorem test_round_robin :
    (grant eightSix).pointer = 3 ∧ (grant (grant eightSix)).pointer = 0 ∧
      (grant (grant (grant eightSix))).pointer = 1 ∧
      (grant (grant (grant eightSix))).granted.map (·.work) =
        [.fetch 2 (fill 3), .fetch 3 (.slate 0 0 256), .fetch 0 (fill 1)] := by decide +kernel

/-- The first bytes of the device record, and the trace entry of a CONVERT context (R82, R196, R202, R205). -/
theorem test_records :
    (({ quiet with tick := 0x1234 } : State).recordContent .device).take 18 =
        [0x40, 0x4C, 1, 1, 0, 0, 0, 0, 0x12, 0, 0, 0, 0, 0, 0, 0, 0, 0] ∧
      held.traceEntry = [3, 0, 0, 0, 6, 0, 0, 0, 6, 0, 0, 0, 0, 0, 1, 0x80] := by decide +kernel

/-! ## Witnesses: states and operands that meet the hypotheses of the statements -/

/-- A running part that takes the cell 5 command, with its invariants. -/
def takes (w : CellWrite) (s : State) : Prop := s.ready w ∧ s.noticeHolds

theorem witness_step :
    ({ quiet with pending := [.tick] } : State).pending = .tick :: [] ∧ quiet.pending = [] ∧
      exec .tick quiet = .next (after .tick quiet) := by
  refine ⟨rfl, rfl, exec_eq_after ?_⟩
  decide +kernel

theorem witness_reset : State.initial.resetting = true ∧ Instr.tick ≠ .powerUp ∧
    Instr.tick ≠ .resetLine ∧ (∀ straps, Instr.tick ≠ .resetRelease straps) := by
  refine ⟨rfl, ?_, ?_, ?_⟩ <;> simp

/-- ENABLE_FEED of a feed that is not configured, and a code above the sixteen. -/
theorem witness_refused :
    quiet.ready (cell 0 0 0 0 0 0 0) ∧
      completes (commandRow 2 (cell 0 0 0 0 0 0 0)) quiet = true ∧
      (after (commandRow 2 (cell 0 0 0 0 0 0 0)) quiet).cells[5] =
        settledCell (cell 0 0 0 0 0 0 0) .wrongState 0 ∧
      (after (commandRow 17 (cell 0 0 0 0 0 0 0)) quiet).cells[5] =
        settledCell (cell 0 0 0 0 0 0 0) .unknown 0 := by
  unfold State.ready; decide +kernel

/-- R4's limits: 256 and 2,048 pass, 255 and 2,056 fail as parameter 1; 1,090 lines as parameter 2. -/
theorem test_feed_ranges :
    feedParamBad feedCell = none ∧
      feedParamBad { feedCell with w1 := 0x00800800, w3 := 0x03022000 } = none ∧
      feedParamBad { feedCell with w1 := 0x008000FF } = some 1 ∧
      feedParamBad { feedCell with w1 := 0x00800808, w3 := 0x03022040 } = some 1 ∧
      feedParamBad { feedCell with w1 := 0x04420100 } = some 2 ∧
      outputParamBad outputCell = none := by decide +kernel

theorem witness_configureFeed :
    takes feedCell quiet ∧ targetQuad feedCell = some 0 ∧ quiet.feeds[0].cadence.state = .disabled ∧
      quiet.feedInUse 0 = false ∧ feedParamBad feedCell = none ∧
      quiet.feedOverlap 0 (feedConfigOf feedCell) = none ∧ feedConfigOf feedCell = feedConfig := by
  unfold takes State.ready State.noticeHolds; decide +kernel

theorem witness_enableFeed :
    takes (cell 0 0 0 0 0 0 0) (withFeed offFeed quiet) ∧
      (withFeed offFeed quiet).feeds[0].config = some feedConfig ∧
      (withFeed offFeed quiet).feeds[0].cadence.state = .disabled := by
  unfold takes State.ready State.noticeHolds; decide +kernel

theorem witness_disableFeed :
    takes (cell 0 0 0 0 0 0 0) capturing ∧ targetQuad (cell 0 0 0 0 0 0 0) = some 0 ∧
      capturing.feeds[0].cadence.state ≠ .disabled ∧ capturing.feedInUse 0 = false ∧
      1 = capturing.feeds[0].history.countP (fun r => r.status = .filling) := by
  unfold takes State.ready State.noticeHolds; decide +kernel

/-- A cache with a line of feed 0 that no build uses, one that a build uses, and a line of feed 1. -/
def line (f : FeedId) (l uses : Nat) : CacheEntry :=
  ⟨some ⟨f, 0, 0, l⟩, .valid, uses, false, [1], none, 0, false⟩
def cached : Cache :=
  { ((Cache.initial.put 0 (line 0 3 0)).put 1 (line 0 4 1)).put 2 (line 1 3 0) with order := [2, 0, 1] }

theorem witness_dropped :
    cached.entries[(0 : EntryId)].key = some ⟨0, 0, 0, 3⟩ ∧ cached.entries[(0 : EntryId)].state = .valid ∧
      cached.entries[(0 : EntryId)].uses = 0 ∧
      ¬ (cached.entries[(1 : EntryId)].state = .valid ∧ cached.entries[(1 : EntryId)].uses = 0) ∧
      (∀ k, cached.entries[(2 : EntryId)].key = some k → ¬ k.feed = 0) ∧
      cached.entries[(3 : EntryId)].state = .free ∧
      (∀ i ∈ cached.order, cached.entries[i].state ≠ .free) := by
  refine ⟨?_, ?_, ?_, ?_, ?_, ?_, ?_⟩
  case refine_5 => rintro k ⟨⟩; decide
  all_goals decide +kernel

/-- The FILLING record is counted, once the counter is at its top not any more; the feed's lines leave the
cache, the one in use by its drop mark, and feed 1's stays (R22, R45, R126). -/
theorem test_disable_feed :
    (after (.disableFeed (cell 0 0 0 0 0 0 0)) capturing).feeds[0].partials = 1 ∧
      (after (.disableFeed (cell 0 0 0 0 0 0 0))
        (withFeed { onFeed with partials := 65535 } quiet)).feeds[0].partials = 65535 ∧
      (after (.disableFeed (cell 0 0 0 0 0 0 0)) { capturing with cache := cached }).cache =
        { ((cached.put 0 CacheEntry.freed).put 1 { line 0 4 1 with drop := true }) with order := [2, 1] } := by
  decide +kernel

theorem witness_rearmMonitor :
    takes (cell 0 1 0 0 0 0 0) capturing ∧ capturing.feeds[0].config = some feedConfig ∧
      1 ≤ field (cell 0 1 0 0 0 0 0).w1 0 8 := by
  unfold takes State.ready State.noticeHolds; decide +kernel

/-- The rules of an output without a context. -/
theorem holds_of_idle (x : Output) (h1 : x.gen.counting = false) (h2 : x.state ≠ .running)
    (h3 : x.config.isSome = true ↔ x.state ≠ .unconfigured)
    (h4 : x.ctx.heldWhole = none ∧ x.ctx.heldTop = none ∧ x.ctx.heldBottom = none ∧
      x.ctx.frozen = none ∧ x.ctx.decision = none) (h5 : x.ctx.retired = none) : x.Holds where
  counting := by simp [h1, h2]
  configured := h3
  contexts _ := h4
  scan _ h := absurd h h2
  next _ h := absurd h h2
  contents y h := by simp [Contexts.all, h4, h5] at h
  frozen y h := by simp [h4] at h

/-- A RUNNING output keeps R51, R52, R55, R61, R62 and R135. -/
theorem witness_outputs : runningOutput.Holds where
  counting := by decide +kernel
  configured := by decide +kernel
  contexts := by decide +kernel
  scan := by rintro _ - ⟨⟩ p; cases p <;> decide +kernel
  next := by rintro _ - ⟨⟩; decide +kernel
  contents := by
    intro y h
    obtain rfl : y = held := by
      simpa [Contexts.all, runningOutput, stoppedOutput, Output.configured, Output.initial,
        Contexts.initial] using h
    decide +kernel
  frozen := by intro y h; cases h

theorem witness_configureOutput :
    takes outputCell quiet ∧ quiet.outputs[1].Holds ∧ targetQuad outputCell = some 1 ∧
      quiet.outputs[1].live = false ∧ outputParamBad outputCell = none ∧
      quiet.geometryKnown (outputConfigOf outputCell) = true ∧
      quiet.windowOverlap 1 (outputConfigOf outputCell) = none := by
  refine ⟨by unfold takes State.ready State.noticeHolds; decide +kernel,
    holds_of_idle _ ?_ ?_ ?_ ?_ ?_, ?_⟩ <;> decide +kernel

def stopped : State := withOutput stoppedOutput capturing

/-- ENABLE_FEED of a feed that is not configured passes the target's check and fails the state's; of one that is
configured and DISABLED it passes both (R169). -/
theorem witness_checks :
    settledBy (quiet.checks 2 (cell 0 0 0 0 0 0 0)) (some (.wrongState, 0)) ∧
      settledBy ((withFeed offFeed quiet).checks 2 (cell 0 0 0 0 0 0 0)) none ∧
      settledBy (quiet.checks 2 (cell 4 0 0 0 0 0 0)) (some (.badField, 0)) :=
  ⟨.inl ⟨Nat.zero_le 3, .inr ⟨fun h => h.1 rfl, _, rfl, rfl⟩⟩,
    .inl ⟨Nat.zero_le 3, .inl ⟨⟨Option.some_ne_none feedConfig, rfl⟩, rfl⟩⟩,
    .inr ⟨Nat.not_succ_le_self 3, _, rfl, rfl⟩⟩

/-- What a command settles in cell 5. -/
def settledIn (code : Byte) (w : CellWrite) (s : State) : Option (ResultCode × Byte) :=
  ((after (commandRow code w) s).cells[w.cell]).bind (·.settled)

/-- One refusal of each kind, in the order of R169: CONFIGURE_FEED of a feed that a RUNNING output uses, LOAD of
a bank that it uses, START_OUTPUT with its bank loading; 264 lines against 128; a window over feed 0's, and one
that leaves the address space. -/
theorem test_checks :
    settledIn 1 feedCell (withFeed offFeed running) = some (.inUse, 0) ∧
      settledIn 12 (cell 0 0x77 0 0 0 0 0) running = some (.inUse, 0) ∧
      settledIn 6 (cell 1 0 0 0 0 0 0)
        { stopped with banks := stopped.banks.set 0 { stopped.banks[0] with loading := some 3 } }
        = some (.inUse, 0) ∧
      settledIn 5 { outputCell with w2 := 0x01080100 } stopped = some (.geometry, 0) ∧
      settledIn 5 { outputCell with w4 := 0x2000 } stopped = some (.overlap, 2) ∧
      settledIn 5 { outputCell with w4 := 0x0FFFFFFF } stopped = some (.overlap, 4) ∧
      settledIn 7 (cell 1 0 0 0 0 0 0) stopped = some (.wrongState, 0) := by decide +kernel

/-- The parameters of the other commands at the edges of their ranges (R175, R179 to R185). -/
theorem witness_oneParameter :
    stopped.ready (cell 0 1 0 0 0 0 0) ∧ targetQuad (cell 0 1 0 0 0 0 0) = some 0 ∧
      stopped.feeds[0].config ≠ none ∧ running.ready (cell 1 4 0 0 0 0 0) ∧
      targetQuad (cell 1 4 0 0 0 0 0) = some 1 ∧ running.outputs[1].live = true ∧
      ¬ field (cell 1 4 0 0 0 0 0).w1 0 8 ≤ 3 ∧ running.ready (cell 1 0x10000000 0 0 0 0 0) ∧
      targetBank (cell 1 0x10000000 0 0 0 0 0) = some 1 ∧ running.bankFree 1 ∧
      ¬ (cell 1 0x10000000 0 0 0 0 0).w1.toNat < 2 ^ 28 ∧ ¬ field (cell 0 9 0 0 0 0 0).w1 0 8 ≤ 8 := by
  refine ⟨?_, ?_, ?_, ?_, ?_, ?_, ?_, ?_, ?_, ⟨?_, ?_⟩, ?_, ?_⟩
  case refine_10 =>
    intro o c h hb
    have one : ∀ o : OutId, o = 1 ∨ running.outputs[o].config = none := by decide +kernel
    rcases one o with rfl | hn
    · rw [show running.outputs[(1 : OutId)].config = some outputConfig from rfl] at h
      cases h; exact absurd hb (by decide)
    · cases hn.symm.trans h
  all_goals first | (unfold State.ready; decide +kernel) | decide +kernel

theorem test_other_ranges :
    settledIn 4 (cell 0 0 0 0 0 0 0) stopped = some (.badField, 1) ∧
      settledIn 10 (cell 1 4 0 0 0 0 0) running = some (.badField, 1) ∧
      settledIn 8 (cell 1 0x03030303 256 0 0 0 0) stopped = some (.badField, 5) ∧
      settledIn 9 (cell 1 0x00020100 0x4000 0 0 0 0) stopped = some (.badField, 3) ∧
      settledIn 12 (cell 1 0x10000000 0 0 0 0 0) running = some (.badField, 1) ∧
      settledIn 13 (cell 0 9 0 0 0 0 0) quiet = some (.badField, 1) ∧
      settledIn 14 (cell 0 8 0 0 0 0 0) quiet = some (.done, 0) := by decide +kernel

theorem witness_startOutput :
    takes (cell 1 0 0 0 0 0 0) stopped ∧ targetQuad (cell 1 0 0 0 0 0 0) = some 1 ∧
      stopped.outputs[1].config = some outputConfig ∧ stopped.outputs[1].state = .stopped ∧
      stopped.banks[(0 : Fin 2)].loading = none ∧ stopped.geometryHolds outputConfig = true := by
  unfold takes State.ready State.noticeHolds; decide +kernel

theorem witness_stopOutput :
    takes (cell 1 0 0 0 0 0 0) running ∧ running.outputs[1].Holds ∧
      targetQuad (cell 1 0 0 0 0 0 0) = some 1 ∧ running.outputs[1].live = true := by
  refine ⟨by unfold takes State.ready State.noticeHolds; decide +kernel, witness_outputs, ?_⟩
  decide +kernel

/-- The contexts of an output that a stop meets: one that a build uses, one that no build uses and a frozen one;
and a read that waits in its queue (R84, R119, R136). -/
def stopping : State :=
  withOutput { runningOutput with
    modes := { runningOutput.modes with mode := .freeze }
    ctx := { runningOutput.ctx with
      heldTop := some { held with uses := 1 }, frozen := some { held with kind := .freeze } }
    builder := { runningOutput.builder with queue := [⟨0, 8, 2, 2, 1⟩] } }
    { capturing with reads := [⟨0, 3, [⟨.okay, [1]⟩], false⟩, ⟨1, 4, [], false⟩] }

theorem witness_stopOutput_contexts :
    takes (cell 1 0 0 0 0 0 0) stopping ∧ stopping.outputs[1].live = true ∧
      stopping.outputs[1].ctx.held .top = some { held with uses := 1 } ∧
      stopping.outputs[1].ctx.held .whole = some held ∧ held.uses = 0 ∧
      stopping.outputs[1].state = .running ∧ stopping.outputs[1].config = some outputConfig ∧
      stopping.outputs[1].builder.run = none ∧
      (∀ q ∈ stopping.outputs[1].builder.queue, q.serial ≠ 1) ∧
      stopping.outputs[1].builder.queue.filter (fun r => r.serial = 0) = [⟨0, 8, 2, 2, 1⟩] := by
  unfold takes State.ready State.noticeHolds; decide +kernel

/-- SET_RESPONSE, FORCE_MODE FREEZE and RELEASE_MODE. -/
theorem witness_modeCommands :
    takes (cell 1 0x03020001 255 0 0 0 0) running ∧ running.outputs[1].state ≠ .unconfigured ∧
      responseParamBad (cell 1 0x03020001 255 0 0 0 0) = none ∧ running.outputs[1].live = true ∧
      field (cell 1 2 0 0 0 0 0).w1 0 8 = Mode.freeze.code ∧
      running.outputs[1].config = some outputConfig := by
  unfold takes State.ready State.noticeHolds; decide +kernel

/-- SET_SLATE with page 4000H, PERIODIC and n = 255. -/
theorem witness_setSlate :
    takes (cell 1 0x00FF0201 0x4000 0 0 0 0) running ∧ running.outputs[1].state ≠ .unconfigured ∧
      slateParamBad (cell 1 0x00FF0201 0x4000 0 0 0 0) = none ∧
      running.slateOverlap 1 (slatePageOf (cell 1 0x00FF0201 0x4000 0 0 0 0)) = none := by
  unfold takes State.ready State.noticeHolds; decide +kernel

theorem witness_loadCoefficients :
    quiet.ready (cell 1 0x0FFFFFFF 0 0 0 0 0) ∧
      targetBank (cell 1 0x0FFFFFFF 0 0 0 0 0) = some 1 ∧ quiet.bankInUse 1 = false ∧
      quiet.banks[(1 : Fin 2)].loading = none ∧
      (cell 1 0x0FFFFFFF 0 0 0 0 0).w1.toNat < 2 ^ 28 := by
  unfold State.ready; decide +kernel

/-- Selectors 3, 7 and 8: the last feed, the last output, the device. -/
theorem witness_selectors :
    takes (cell 0 3 0 0 0 0 0) quiet ∧ field (cell 0 3 0 0 0 0 0).w1 0 8 = (3 : FeedId).val ∧
      field (cell 0 7 0 0 0 0 0).w1 0 8 = 4 + (3 : OutId).val ∧
      field (cell 0 8 0 0 0 0 0).w1 0 8 = 8 := by
  unfold takes State.ready State.noticeHolds; decide +kernel

/-- A clear of a set condition marks its record, one of a clear word does not; both mark the device record,
since the cell's state changes (R168, R195). -/
theorem test_clear_marks :
    (after (.clearConditions (cell 0 0 1 1 0 0 0)) (withFeed { onFeed with word := 1 } quiet)).class3 =
        [.record .device, .record (.feed 0)] ∧
      (after (.clearConditions (cell 0 0 1 1 0 0 0)) quiet).class3 = [.record .device] := by decide +kernel

theorem witness_unknownCommand :
    quiet.ready feedCell ∧ unknownCode 0 = true ∧ unknownCode 17 = true ∧ unknownCode 16 = false := by
  unfold State.ready; decide +kernel

/-! ### Bursts -/

/-- A part whose read channel has its 32 bursts, and one whose output 1 has its 16 reads. -/
def full : State := { quiet with reads := List.replicate 32 ⟨0, 1, [], false⟩ }
def fullQueue : State :=
  withOutput { stoppedOutput with
    builder := { stoppedOutput.builder with queue := List.replicate 16 ⟨0, 0, 2, 2, 0⟩ } } capturing
/-- A FIXED read of output 1's window. -/
def fixedRead : Burst := { read 3 (inOutput 0) 8 with kind := .fixed }

/-- Kept out by 32 reads, with and without a held burst; kept out by 16 in the window's queue, where 15 let it
in; held and presented again; behind another held burst (R108, R157). -/
theorem witness_fullChannel :
    Instr.passthrough (read 3 0x100000 4) ∈ burstRows (read 3 0x100000 4) ∧
      Instr.refusedBurst fixedRead ∈ burstRows fixedRead ∧ full.resetting = false ∧
      full.fullFor (read 3 0x100000 4) ∧ full.heldFor (read 3 0x100000 4) = none ∧
      ({ full with heldRead := some (read 4 0 4) } : State).heldFor (read 3 0x100000 4) ≠ none ∧
      fullQueue.fullFor fixedRead ∧ fullQueue.heldFor fixedRead = none ∧ ¬ stopped.fullFor fixedRead ∧
      ({ stopped with heldRead := some fixedRead } : State).heldFor fixedRead = some fixedRead ∧
      ({ stopped with heldRead := some (read 4 0 4) } : State).heldFor fixedRead = some (read 4 0 4) ∧
      read 4 0 4 ≠ fixedRead := by
  refine ⟨by simp [burstRows], by simp [burstRows], ?_⟩
  unfold State.fullFor
  decide +kernel

def slateSet : State :=
  withOutput { stoppedOutput with modes := { stoppedOutput.modes with slatePage := some 0x4000 } }
    capturing

/-- One burst for each class: other, control block, slot region, slate region. -/
theorem witness_forwarded :
    quiet.open_ (read 3 0x100000 4) ∧ quiet.classOf (read 3 0x100000 4).addr = none ∧
      quiet.classOf (read 3 0x1FFC 4).addr = some .control ∧
      capturing.open_ (write 3 (inSlots 0x5FFFC) 4) ∧
      capturing.classOf (write 3 (inSlots 0x5FFFC) 4).addr = some (.slots 0) ∧
      slateSet.open_ (write 3 0x4000000 4) ∧
      slateSet.classOf (write 3 0x4000000 4).addr = some (.slate 1) ∧
      capturing.feeds[0].config = some feedConfig := by
  unfold State.open_; decide +kernel

/-- The first and the last page of feed 0's slot region, whose map entry has 96 pages (R147, R148). -/
theorem witness_inMap :
    capturing.inMap ⟨.slots 0, 0x1000, 96⟩ ∧
      (⟨.slots 0, 0x1000, 96⟩ : MapEntry).holdsAddr (BitVec.ofNat 40 (inSlots 0)) ∧
      (⟨.slots 0, 0x1000, 96⟩ : MapEntry).holdsAddr (BitVec.ofNat 40 (inSlots 0x5FFFF)) ∧
      capturing.classOf (BitVec.ofNat 40 (inSlots 0x5FFFF)) = some (.slots 0) ∧
      capturing.classOf (BitVec.ofNat 40 (inSlots 0x60000)) = none :=
  ⟨.inr (.inl ⟨0, feedConfig, rfl, .inr rfl⟩), by unfold MapEntry.holdsAddr; decide +kernel,
    by unfold MapEntry.holdsAddr; decide +kernel, by decide +kernel, by decide +kernel⟩

/-- A write of one word of cell 15, and one of the first status record. -/
theorem witness_malformed :
    quiet.open_ (write 3 0x5FC 4) ∧ quiet.noticeHolds ∧
      quiet.classOf (write 3 0x5FC 4).addr = some .control ∧
      (∀ c : CellId, (write 3 0x5FC 4).coversCell quiet.controlBase c = false) ∧
      (∀ c : CellId, (write 3 0x000 4).coversCell quiet.controlBase c = false) ∧
      quiet.classOf (write 3 0x000 4).addr = some .control := by
  unfold State.open_ State.noticeHolds; decide +kernel

/-- A write of cell 4 whole and one word of cell 5, and one of both cells whole (R166, R167). -/
theorem witness_severalCells :
    quiet.open_ (write 3 0x480 36) ∧ quiet.noticeHolds ∧ (write 3 0x480 36).write = true ∧
      quiet.classOf (write 3 0x480 36).addr = some .control ∧ quiet.controlBase = 0 ∧
      (write 3 0x480 36).coversCell 0 4 = true ∧ (write 3 0x480 36).coversCell 0 5 = false ∧
      (write 3 0x480 36).touches 0x4A0 0x4C0 = true ∧ (write 3 0x480 36).touches 0x4C0 0x4E0 = false ∧
      quiet.open_ (write 3 0x480 64) ∧ (write 3 0x480 64).coversCell 0 5 = true := by
  unfold State.open_ State.noticeHolds; decide +kernel

/-- The first of them brings cell 4 its command, of the unknown code 5AH, and sets COMMAND_FORM for cell 5. -/
theorem test_command_and_form :
    (after (.controlBlockWrite (write 3 0x480 36)) quiet).cells[4] =
        settledCell { feedCell with tag := 0x5A } .unknown 0 ∧
      (after (.controlBlockWrite (write 3 0x480 36)) quiet).deviceWord = 0x0020 := by decide +kernel

def busy : State := { quiet with cells := quiet.cells.set 5 (some (ActiveCommand.fresh 1)) }

theorem witness_overrun :
    busy.open_ (feedCell.burst busy.controlBase 1) ∧ busy.noticeHolds ∧
      busy.cells[feedCell.cell] ≠ none := by
  unfold State.open_ State.noticeHolds; decide +kernel

/-- CAPTURING with no anchor; IDLE; AWAITING with no anchor. -/
def awaiting : State := withFeed { onFeed with phase := .awaiting, current := none } quiet

theorem witness_ingestWrite :
    capturing.open_ (write 3 (inWindow 1020) 8) ∧ 1 ≤ (write 3 (inWindow 1020) 8).len ∧
      capturing.classOf (write 3 (inWindow 1020) 8).addr = some (.ingest 0) ∧
      capturing.feeds[0].config = some feedConfig ∧ capturing.feeds[0].phase = .capturing ∧
      capturing.feeds[0].current = some 0 ∧
      anchorAt feedConfig (feedConfig.offset (write 3 (inWindow 1020) 8)) = none ∧
      0 < feedConfig.width ∧ 4 * feedConfig.width ≤ feedConfig.stride ∧
      awaiting.open_ (write 3 (inWindow 1020) 8) ∧ awaiting.feeds[0].phase ≠ .capturing ∧
      awaiting.classOf (write 3 (inWindow 1020) 8).addr = some (.ingest 0) ∧
      (withFeed offFeed quiet).classOf (write 3 (inWindow 0) 8).addr = some (.ingest 0) ∧
      (withFeed offFeed quiet).feeds[0].phase = .idle := by
  unfold State.open_; decide +kernel

/-- The OKAY of a dropped write goes up at once, or is kept behind an earlier write of its ID (R7, R158). -/
theorem test_dropped_write :
    (after (.ingestWrite (write 3 (inWindow 1020) 8)) awaiting).busOut = [.write 3 .okay] ∧
      (after (.ingestWrite (write 3 (inWindow 1020) 8)) { awaiting with writes := [⟨7, 3, none⟩] }).writes =
        [⟨7, 3, none⟩, ⟨0, 3, some .okay⟩] := by decide +kernel

theorem witness_frameAnchor :
    capturing.open_ (write 3 (inWindow 0) 8) ∧ capturing.feeds[0].phase ≠ .idle ∧
      capturing.classOf (write 3 (inWindow 0) 8).addr = some (.ingest 0) ∧
      anchorAt feedConfig (feedConfig.offset (write 3 (inWindow 0) 8)) = some (.frame, .whole) ∧
      capturing.feeds[0].chooseSlot feedConfig.slots = some 2 ∧
      awaiting.feeds[0].phase = .awaiting := by
  unfold State.open_; decide +kernel

/-- An interlaced feed: CAPTURING with its first field alone, DISCARDING, and with every slot pinned. -/
def fields : FeedConfig := { feedConfig with rate := .i50, order := some .tff }
def fieldFeed : Feed :=
  { onFeed with config := some fields, history := [⟨7, 0, .top, 25600, .filling, [], 0, 0⟩] }
def pinned : State :=
  withFeed { onFeed with
    phase := .awaiting, current := none
    history := [⟨5, 0, .whole, 1, .complete, [], 128, 1⟩, ⟨6, 1, .whole, 2, .complete, [], 128, 1⟩,
      ⟨7, 2, .whole, 3, .complete, [], 128, 1⟩] } quiet

theorem witness_anchors :
    (withFeed fieldFeed quiet).open_ (write 3 (inWindow 1024) 8) ∧
      anchorAt fields (fields.offset (write 3 (inWindow 1024) 8)) = some (.second, .bottom) ∧
      recordOf 0 .bottom (withFeed fieldFeed quiet).feeds[0].history = none ∧
      (withFeed { fieldFeed with phase := .discarding, current := none } quiet).feeds[0].phase
        = .discarding ∧
      pinned.open_ (write 3 (inWindow 0) 8) ∧
      pinned.feeds[0].chooseSlot feedConfig.slots = none := by
  unfold State.open_; decide +kernel

/-- A slot that has both fields: the second-field anchor is taken as a frame anchor, with a slot to take and
with every slot pinned (R16). -/
def bothFields (pins : Nat) : Feed :=
  { fieldFeed with history :=
    [⟨5, 1, .top, 1, .complete, [], 64, pins⟩, ⟨6, 2, .top, 2, .complete, [], 64, pins⟩,
      ⟨7, 0, .top, 3, .complete, [], 64, 0⟩, ⟨8, 0, .bottom, 4, .filling, [], 0, 0⟩] }

theorem witness_repeatedField :
    (withFeed (bothFields 0) quiet).open_ (write 3 (inWindow 1024) 8) ∧ (bothFields 0).phase = .capturing ∧
      anchorAt fields (fields.offset (write 3 (inWindow 1024) 8)) = some (.second, .bottom) ∧
      (∃ x ∈ (bothFields 0).history, (bothFields 0).current = some x.slot ∧ x.parity = .bottom) ∧
      (bothFields 0).chooseSlot fields.slots = some 1 ∧ (bothFields 1).chooseSlot fields.slots = none := by
  unfold State.open_; decide +kernel

theorem witness_ingestRead :
    capturing.open_ (read 3 (inWindow 4) 8) ∧
      capturing.classOf (read 3 (inWindow 4) 8).addr = some (.ingest 0) ∧
      capturing.feeds[0].config = some feedConfig := by
  unfold State.open_; decide +kernel

/-- A read that ends in the last line's padding, of an output that is STOPPED. -/
theorem witness_idleWindow :
    stopped.open_ (read 3 (inOutput 0x1FFF8) 8) ∧ stopped.noticeHolds ∧
      1 ≤ (read 3 (inOutput 0x1FFF8) 8).len ∧
      stopped.classOf (read 3 (inOutput 0x1FFF8) 8).addr = some (.window 1) ∧
      stopped.outputs[1].config = some outputConfig ∧ stopped.outputs[1].state ≠ .running ∧
      stopped.outputs[1].builder.queue = [] ∧ stopped.outputs[1].builder.run = none ∧
      stopped.serialsHold := by
  unfold State.open_ State.noticeHolds State.serialsHold; decide +kernel

/-- A build of line 0 with every line it needs held VALID. -/
def build : Build :=
  { line := 0, context := 4, parity := .whole, buffer := 0, a := ⟨0, 6, 1, 0, .whole⟩, b := ⟨0, 6, 1, 0, .whole⟩
    weight := 0, sourceLines := 128, slotPage := 0x1000, slotSize := 0x20000, sourceStride := 1024
    outLines := 128, width := 256, clip := .narrow, fill := ⟨64, 512, 512⟩, table := linearTable
    holds := [(⟨0, 1, 0, 0⟩, 0), (⟨0, 1, 0, 1⟩, 1), (⟨0, 1, 0, 2⟩, 2)] }

theorem witness_startBuild :
    running.open_ (read 3 (inOutput 0x1FC00) 8) ∧ running.noticeHolds ∧
      running.classOf (read 3 (inOutput 0x1FC00) 8).addr = some (.window 1) ∧
      running.outputs[1].config = some outputConfig ∧
      running.feeds[outputConfig.feed].config = some feedConfig ∧
      running.outputs[1].state = .running ∧ running.outputs[1].builder.queue = [] ∧
      running.outputs[1].builder.run = none ∧ running.outputs[1].builder.build = none ∧
      127 = 0x1FC00 / outputConfig.stride ∧ 127 < outputConfig.lines ∧
      running.outputs[1].ctx.held (outputConfig.lineParity 127) = some held ∧ held.kind = .convert ∧
      running.outputs[1].builder.lacks 127 held ∧
      8 ≤ allEntries.countP (fun e => running.cache.entries[e].state = .free) := by
  unfold State.open_ State.noticeHolds LineBuilder.lacks; decide +kernel

/-- Lines of 1,088 bytes, 64 of them padding. -/
def padded : OutputConfig := { outputConfig with stride := 1088 }

/-- Output 1 RUNNING with line 127 READY in buffer 1 and a build of line 0 in progress. -/
def half : Output :=
  { runningOutput with
    config := some padded
    ctx := { runningOutput.ctx with heldWhole := some { held with uses := 1 } }
    builder := { runningOutput.builder with
      build := some build
      buffers := #v[⟨.building, some 0, some 4, false, []⟩, ⟨.ready, some 127, some 4, false, [1, 2]⟩] } }

/-- Behind another read; a beat of the READY line and one of padding; a beat that waits on the build. -/
theorem witness_runningReads :
    (withOutput { half with builder := { half.builder with queue := [⟨0, 0, 2, 1, 0⟩] } } capturing).open_
        (read 3 (inOutput 0) 8) ∧
      (withOutput half capturing).open_ (read 3 (inOutput 0x21FBC) 8) ∧
      (withOutput half capturing).noticeHolds ∧ (withOutput half capturing).serialsHold ∧
      (withOutput half capturing).classOf (read 3 (inOutput 0x21FBC) 4).addr = some (.window 1) ∧
      half.config = some padded ∧ half.state = .running ∧ half.builder.queue = [] ∧
      half.builder.run = none ∧
      half.atOnce padded (beatStart 0x21FBC 2 0) (some 1) ∧
      half.atOnce padded (beatStart 0x21FBC 2 1) none ∧
      inPicture padded (beatStart 0 2 0) ∧ half.builder.build = some build ∧
      half.ctx.held (padded.lineParity (beatStart 0 2 0 / padded.stride)) =
        some { held with uses := 1 } ∧
      half.builder.lacks 0 { held with uses := 1 } := by
  refine ⟨?_, ?_, ?_, ?_, ?_, rfl, rfl, rfl, rfl, ?_, ?_, ?_, rfl, rfl, ?_⟩
  · unfold State.open_; decide +kernel
  · unfold State.open_; decide +kernel
  · unfold State.noticeHolds; decide +kernel
  · unfold State.serialsHold; decide +kernel
  · decide +kernel
  · exact fun _ => .inr ⟨1, { held with uses := 1 }, by decide +kernel⟩
  · exact fun h => absurd h (by decide +kernel)
  · decide +kernel
  · unfold LineBuilder.lacks; decide +kernel

/-- A read into an empty queue whose first beat, of line 0's padding, is answered at once and whose second, of
line 1, starts a build (R109, R112). -/
def paddedRunning : State := withOutput { runningOutput with config := some padded } capturing

theorem witness_readIntoEmptyQueue :
    paddedRunning.open_ (read 3 (inOutput 1084) 8) ∧ paddedRunning.noticeHolds ∧
      paddedRunning.classOf (read 3 (inOutput 1084) 8).addr = some (.window 1) ∧
      paddedRunning.outputs[1].config = some padded ∧ paddedRunning.outputs[1].builder.queue = [] := by
  unfold State.open_ State.noticeHolds; decide +kernel

theorem test_read_then_build :
    let t := after (.outputRead (read 3 (inOutput 1084) 8)) paddedRunning
    t.reads = [⟨0, 3, [⟨.okay, [0, 0, 0, 0]⟩], false⟩] ∧
      t.outputs[1].builder.build.map (·.line) = some 1 ∧
      t.outputs[1].builder.queue = [⟨0, 1084, 2, 2, 1⟩] := by decide +kernel

/-- A FILL context, and a SLATE context without a page (R110, R111). -/
theorem witness_fillReads :
    ({ runningOutput with ctx := { runningOutput.ctx with
        heldWhole := some { held with kind := .fill, a := none, b := none } } }).atOnce outputConfig 0 none ∧
      ({ runningOutput with ctx := { runningOutput.ctx with
        heldWhole := some { held with kind := .slate, a := none, b := none } } }).atOnce outputConfig 0 none := by
  refine ⟨fun _ => .inl ⟨rfl, ?_⟩, fun _ => .inl ⟨rfl, ?_⟩⟩ <;>
    (intro y h; obtain rfl := Option.some.inj (show some _ = some y from h)) <;> decide +kernel

/-- A SLATE context with its page at 4000H, where a write of the region's second page is listed. -/
def slateRunning : State :=
  let s := withOutput { runningOutput with
    modes := { runningOutput.modes with slatePage := some 0x4000 }
    ctx := { runningOutput.ctx with
      heldWhole := some { held with kind := .slate, a := none, b := none } } } capturing
  { s with class2 := [⟨0, write 3 0x4001000 4, .slate, [], []⟩] }

theorem witness_slateRun :
    slateRunning.open_ (read 3 (inOutput 0x1000) 8) ∧ slateRunning.noticeHolds ∧
      slateRunning.classOf (read 3 (inOutput 0x1000) 8).addr = some (.window 1) ∧
      inPicture outputConfig 0x1000 ∧ slateRunning.outputs[1].modes.slatePage = some 0x4000 ∧
      (slateRunning.outputs[1].ctx.held (outputConfig.lineParity 4)).map (·.kind) = some .slate ∧
      slateRunning.slateWritten 0x4001 = true ∧ slateRunning.slateWritten 0x4000 = false := by
  unfold State.open_ State.noticeHolds; decide +kernel

/-- An output whose head beat is the first of `q`, with another burst behind it. -/
def heading (x : Output) (q : QueuedRead) : State :=
  withOutput { x with builder := { x.builder with queue := [q, ⟨1, 0, 2, 2, 0⟩] } }
    { capturing with reads := [⟨0, 3, [], false⟩, ⟨1, 3, [], false⟩] }

/-- An empty queue, and a run in flight; a head beat of a READY line, one of an output that is not RUNNING,
one that waits on a build, one that starts a build, and one of a SLATE line (R108 to R112, R115). -/
theorem witness_headBeat :
    running.outputs[1].builder.queue = [] ∧
      (heading half ⟨0, 0x21C00, 2, 2, 1⟩).noticeHolds ∧
      (heading half ⟨0, 0x21C00, 2, 2, 1⟩).outputs[1].builder.queue = [⟨0, 0x21C00, 2, 2, 1⟩, ⟨1, 0, 2, 2, 0⟩] ∧
      half.builder.run = none ∧ half.state = .running ∧ half.config = some padded ∧
      half.atOnce padded (beatStart 0x21C00 2 1) (some 1) ∧ stoppedOutput.state ≠ .running ∧
      half.ctx.held (padded.lineParity 0) = some { held with uses := 1 } ∧ inPicture padded 0 ∧
      half.builder.lacks 0 { held with uses := 1 } ∧ half.builder.build ≠ none ∧
      { half.builder with build := none }.lacks 0 { held with uses := 1 } ∧
      capturing.feeds[padded.feed].config = some feedConfig ∧ held.a.isSome = true ∧ held.b.isSome = true ∧
      slateRunning.outputs[1].modes.slatePage = some 0x4000 ∧
      (slateRunning.outputs[1].ctx.held (outputConfig.lineParity 4)).map (·.kind) = some .slate := by
  refine ⟨?_, ?_, ?_, rfl, rfl, rfl, ?_, ?_, ?_, ?_, ?_, ?_, ?_, ?_, ?_, ?_, ?_, ?_⟩
  case refine_2 => unfold State.noticeHolds; decide +kernel
  case refine_4 => exact fun _ => .inr ⟨1, { held with uses := 1 }, by decide +kernel⟩
  case refine_8 => unfold LineBuilder.lacks; decide +kernel
  case refine_10 => unfold LineBuilder.lacks; decide +kernel
  all_goals decide +kernel

/-- The prefetch of the last line is due, and that of the line after it is not (R118). -/
theorem witness_prefetch :
    running.noticeHolds ∧ running.outputs[1].config = some outputConfig ∧ 127 < outputConfig.lines ∧
      running.outputs[1].state = .running ∧ running.outputs[1].builder.queue = [] ∧
      running.outputs[1].builder.build = none ∧
      running.outputs[1].ctx.held (outputConfig.lineParity 127) = some held ∧ held.kind = .convert ∧
      running.outputs[1].builder.lacks 127 held ∧
      running.feeds[outputConfig.feed].config = some feedConfig ∧ outputConfig.lines ≤ 128 ∧
      ¬ half.builder.lacks 127 held ∧ half.builder.build ≠ none := by
  unfold State.noticeHolds LineBuilder.lacks; decide +kernel

/-- The prefetch of line 127 builds it for the held context; that of line 128 does nothing (R118). -/
theorem test_prefetch :
    ((running.prefetch 1 127).outputs[1].builder.build.map fun d => (d.line, d.context)) = some (127, 4) ∧
      running.prefetch 1 128 = running := by decide +kernel

theorem witness_refusedBurst :
    stopped.open_ { write 3 (inWindow 0) 8 with kind := .fixed } ∧ stopped.noticeHolds ∧
      stopped.classOf (write 3 (inWindow 0) 8).addr = some (.ingest 0) ∧
      stopped.open_ (write 3 (inOutput 0) 8) ∧
      stopped.classOf (write 3 (inOutput 0) 8).addr = some (.window 1) ∧
      stopped.open_ { read 3 (inOutput 0) 8 with kind := .wrap } := by
  unfold State.open_ State.noticeHolds; decide +kernel

/-! ### Grants and responses -/

def granted (gs : List Granted) (s : State) : State := { s with granted := gs }
def forwarded (b : Burst) (kind : BusKind) (cells : List CellId) : Forwarded := ⟨0, b, kind, cells, []⟩

theorem witness_grants :
    64 ≤ (granted (List.replicate 64 ⟨1, true, .discarded⟩) quiet).granted.length ∧
      eightSix.granted.length < 64 ∧ (2 : OutId) = eightSix.pointer + 1 ∧
      eightSix.class1[(2 : OutId)] = fill 3 :: [] ∧
      (∀ j : Fin 4, j < 1 → eightSix.class1[eightSix.pointer + j] = []) ∧
      (∀ o : OutId, quiet.class1[o] = []) ∧
      ({ quiet with class2 := [forwarded (write 3 0 4) .other []] } : State).class2 =
        forwarded (write 3 0 4) .other [] :: [] := by decide +kernel

def hostRead : Forwarded := forwarded (read 3 0x000 64) .control []
def third (h : Housekeeping) : State := { quiet with class3 := [h] }

/-- The part while the device record's write is out. -/
def writingRecord : State := granted [⟨260, true, .record .device [] []⟩] quiet

/-- A read of the device record is held while that record's write is out; one of feed 0's record, right behind
it, is not (R151). -/
theorem witness_readHeld :
    writingRecord.readHeld hostRead ∧ ¬ writingRecord.readHeld (forwarded (read 3 0x040 64) .control []) := by
  refine ⟨⟨_, List.mem_singleton.mpr rfl, .inl ⟨.device, [], [], rfl, ?_⟩⟩, ?_⟩
  · unfold State.readsBytes; decide +kernel
  · rintro ⟨g, hg, ⟨r, bytes, cells, h, hr⟩ | ⟨o, i, bytes, h, hr⟩⟩ <;>
      (obtain rfl := List.mem_singleton.mp hg; cases h)
    exact absurd hr (by unfold State.readsBytes; decide +kernel)

theorem test_readHeld :
    grant { writingRecord with class2 := [hostRead] } = { writingRecord with class2 := [hostRead] } ∧
      (grant { writingRecord with class2 := [forwarded (read 3 0x040 64) .control []] }).class2 = [] := by
  decide +kernel

/-- Class 3 with a free head of each kind, and with a head that a host read or an overrunning write holds. -/
theorem witness_classThree :
    (third (.record .device)).class3 = .record .device :: [] ∧
      ¬ (third (.record .device)).thirdHeld (.record .device) ∧
      ¬ (third (.trace 3 63 [])).thirdHeld (.trace 3 63 []) ∧
      ¬ (third (.result 5 0)).thirdHeld (.result 5 0) ∧ ¬ (third (.table 1 0)).thirdHeld (.table 1 0) ∧
      (granted [⟨3, false, .bus hostRead⟩] (third (.record .device))).thirdHeld (.record .device) ∧
      ({ quiet with class2 := [{ hostRead with overruns := [5] }] } : State).thirdHeld (.result 5 0) := by
  refine ⟨rfl, ?_, ?_, ?_, id, ⟨_, List.mem_singleton.mpr rfl, hostRead, rfl, ?_⟩,
    ⟨_, .inl (List.mem_singleton.mpr rfl), List.mem_singleton.mpr rfl⟩⟩
  · rintro ⟨g, hg, -⟩; cases hg
  · rintro ⟨g, hg, -⟩; cases hg
  · rintro ⟨x, h | ⟨g, hg, -⟩, -⟩
    · cases h
    · cases hg
  · unfold State.readsBytes; decide +kernel

/-- A granted burst that the answer finds. -/
def answering (id : BitVec 9) (w : Bool) (work : Work) (s : State) : State := granted [⟨id, w, work⟩] s

theorem witness_forwardedResponse :
    (answering 3 false (.bus hostRead) quiet).answers (.read 3 []) ⟨3, false, .bus hostRead⟩ ∧
      (answering 3 true (.bus (forwarded (write 3 0 4) .other [])) quiet).answers (.write 3 .okay)
        ⟨3, true, .bus (forwarded (write 3 0 4) .other [])⟩ ∧
      (answering 3 true (.bus (forwarded (write 3 0 4) .control [5])) busy).answers (.write 3 .okay)
        ⟨3, true, .bus (forwarded (write 3 0 4) .control [5])⟩ ∧
      busy.cells[5] = some (ActiveCommand.fresh 1) := by
  unfold State.answers; decide +kernel

/-- A settled command whose write is not answered yet gets its result word requested (R170). -/
theorem test_result_requested :
    (after (.forwardedResponse (.write 3 .okay))
      (answering 3 true (.bus (forwarded (write 3 0 4) .control [5]))
        { quiet with cells := quiet.cells.set 5 (settledCell (cell 0 0 0 0 0 0 0) .badField 6) })).class3
      = [.result 5 0x00062C03] := by decide +kernel

def account : IngestAccount := ⟨0, 0, 0, [(7, 127)], [3]⟩
def ingested : State :=
  answering 3 true (.bus (forwarded (write 3 0 4) (.ingestWrite account) [])) capturing

theorem witness_ingestResponse :
    ingested.answers (.write ((3 : BitVec 8).setWidth 9) .okay)
        ⟨3, true, .bus (forwarded (write 3 0 4) (.ingestWrite account) [])⟩ ∧
      ingested.feeds[account.feed].config = some feedConfig ∧ ingested.noticeHolds := by
  unfold State.answers State.noticeHolds; decide +kernel

theorem witness_slotRegionWrite :
    feedConfig.slotPage.toNat * 4096 ≤ (write 3 (inSlots 0x5FFFC) 4).low ∧
      (write 3 (inSlots 0x5FFFC) 4).low < (write 3 (inSlots 0x5FFFC) 4).stop ∧ 0 < feedConfig.stride ∧
      slotLines feedConfig (write 3 (inSlots 0x5FFFC) 4) = [(2, 127)] ∧
      (answering 3 true (.bus (forwarded (write 3 0 4) (.slot 0 [(2, 127)]) [])) capturing).answers
        (.write ((3 : BitVec 8).setWidth 9) .okay)
        ⟨3, true, .bus (forwarded (write 3 0 4) (.slot 0 [(2, 127)]) [])⟩ := by
  unfold State.answers; decide +kernel

theorem witness_slateWriteResponse :
    (answering 3 true (.bus (forwarded (write 3 0x4000000 4) .slate [])) slateSet).answers
      (.write ((3 : BitVec 8).setWidth 9) .okay)
      ⟨3, true, .bus (forwarded (write 3 0x4000000 4) .slate [])⟩ := by
  unfold State.answers; decide +kernel

/-- A read that waits on the page joins class 1 at the write's response (R153). -/
theorem test_slate_read_released :
    (after (.slateWriteResponse 3 .okay)
      { answering 3 true (.bus (forwarded (write 3 0x4000000 4) .slate [])) slateSet with
        waitingSlate := [⟨1, 0, 0x4000000, 64⟩] }).class1[1] = [.slate 0 0x4000000 64] := by
  decide +kernel

def identifying : State :=
  { quiet with
    cells := quiet.cells.set 5 (some { ActiveCommand.fresh 1 with identify := .granted, hostAnswered := true }) }
def sending (due : Bool) : State :=
  { quiet with
    cells := quiet.cells.set 5 (some
      { ActiveCommand.fresh 1 with
        settled := some (.done, 0), hostAnswered := true, stage := .granted, abortDue := due }) }

theorem witness_recordResponses :
    (answering 260 true (.record .device [] [5]) identifying).answers (.write 260 .slverr)
        ⟨260, true, .record .device [] [5]⟩ ∧
      (answering 260 true (.trace 0 0 []) quiet).answers (.write 260 .okay) ⟨260, true, .trace 0 0 []⟩ ∧
      (answering 260 true (.result 5 0x101) (sending false)).answers (.write 260 .okay)
        ⟨260, true, .result 5 0x101⟩ ∧
      (answering 260 true (.result 5 0x101) (sending true)).answers (.write 260 .okay)
        ⟨260, true, .result 5 0x101⟩ := by
  unfold State.answers; decide +kernel

def loading : State :=
  { busy with banks := busy.banks.set 1 { busy.banks[(1 : Fin 2)] with loading := some 5 } }
/-- 256 bytes whose every phase is 0, 256, 0, 0. -/
def goodTable : List Byte := (List.replicate 32 [0, 0, 0, 1, 0, 0, 0, 0]).flatten
/-- The same with 400H in the last phase (R206). -/
def badTable : List Byte := goodTable.take 248 ++ [0, 4, 0, 0, 0, 0, 0, 0]

theorem witness_coefficientLoad :
    (answering 260 false (.table 1 0) loading).answers (.read 260 [⟨.okay, goodTable⟩])
        ⟨260, false, .table 1 0⟩ ∧
      (answering 260 false (.table 1 0) loading).banks[(1 : Fin 2)].loading = some 5 ∧
      (answering 260 false (.table 1 0) loading).cells[5] = some (ActiveCommand.fresh 1) ∧
      (∀ p : Fin 32, ((tableOf goodTable)[p]).valid = true) ∧
      ((tableOf badTable)[(31 : Fin 32)]).valid = false ∧
      (∀ q : Fin 32, q < 31 → ((tableOf badTable)[q]).valid = true) := by
  unfold State.answers; decide +kernel

/-- An entry that output 1 fills, with `n` answers still out. -/
def filling (n : Nat) : State :=
  answering 257 false (.fetch 1 (.fill 63 0 256))
    { running with
      cache := running.cache.put 63 ⟨some ⟨0, 1, 0, 5⟩, .fetching, 1, false, [], some 1, n, false⟩ }

theorem witness_lineFill :
    (filling 2).answers (.read (BitVec.ofNat 9 (256 + (1 : OutId).val)) [⟨.okay, [1]⟩])
        ⟨257, false, .fetch 1 (.fill 63 0 256)⟩ ∧
      (filling 1).answers (.read (BitVec.ofNat 9 (256 + (1 : OutId).val)) [⟨.slverr, [1]⟩])
        ⟨257, false, .fetch 1 (.fill 63 0 256)⟩ ∧
      (filling 1).noticeHolds ∧ (filling 1).cache.entries[(63 : EntryId)].state = .fetching ∧
      0 < (filling 1).cache.entries[(63 : EntryId)].uses := by
  unfold State.answers State.noticeHolds; decide +kernel

/-- A build whose B is record 7; its tap lines of A are held, the first of them still out. -/
def concealing : Build :=
  { build with
    b := ⟨0, 7, 0, 0, .whole⟩
    holds := [(⟨0, 1, 0, 0⟩, 63), (⟨0, 1, 0, 1⟩, 62), (⟨0, 1, 0, 2⟩, 61)] }
def held1 (l : Nat) (st : EntryState) : CacheEntry := ⟨some ⟨0, 1, 0, l⟩, st, 1, false, [], none, 0, false⟩
def lastAnswer : State :=
  answering 257 false (.fetch 1 (.fill 63 0 256))
    (withOutput { runningOutput with builder := { runningOutput.builder with build := some concealing } }
      { capturing with
        cache := ((capturing.cache.put 63 { held1 0 .fetching with owner := some 1, left := 1 }).put 62
          (held1 1 .valid)).put 61 (held1 2 .valid) })

/-- The last answer of the last fill that a build waits for, with room in the cache. -/
theorem witness_conceal :
    lastAnswer.answers (.read (BitVec.ofNat 9 (256 + (1 : OutId).val)) [⟨.slverr, [1]⟩])
        ⟨257, false, .fetch 1 (.fill 63 0 256)⟩ ∧ lastAnswer.noticeHolds ∧
      lastAnswer.cache.entries[(63 : EntryId)].state = .fetching ∧
      lastAnswer.cache.entries[(63 : EntryId)].left ≤ 1 ∧
      lastAnswer.outputs[1].builder.build = some concealing ∧
      (∀ p : OutId, p ≠ 1 → lastAnswer.outputs[p].builder.build = none) ∧
      (∀ h ∈ concealing.holds, lastAnswer.cache.entries[h.2].state ≠ .free ∧
        0 < lastAnswer.cache.entries[h.2].uses) ∧
      16 ≤ allEntries.countP (fun i => lastAnswer.cache.entries[i].state = .free) := by
  unfold State.answers State.noticeHolds; decide +kernel

/-- An error at that answer calls for B's three lines; OKAY calls for none (R105). -/
theorem test_conceal :
    ((after (.lineFillResponse 1 [⟨.slverr, [1]⟩]) lastAnswer).outputs[1].builder.build.map
        fun d => d.holds.map (·.1)) =
      some [⟨0, 1, 0, 0⟩, ⟨0, 1, 0, 1⟩, ⟨0, 1, 0, 2⟩, ⟨0, 0, 0, 0⟩, ⟨0, 0, 0, 1⟩, ⟨0, 0, 0, 2⟩] ∧
      ((after (.lineFillResponse 1 [⟨.okay, [1]⟩]) lastAnswer).outputs[1].builder.build.map
        fun d => d.holds.length) = some 3 := by decide +kernel

/-- A FAULTED line of A and none of B; one record that is both with a FAULTED line; both faulted. -/
theorem witness_faultedLines :
    let s : State := { lastAnswer with cache := lastAnswer.cache.put 63 (held1 0 .faulted) }
    concealing.a.number ≠ concealing.b.number ∧
      concealing.entryOf (concealing.tapKey concealing.a 0) = some 63 ∧
      s.cache.entries[(63 : EntryId)].state = .faulted ∧
      (∀ i : Fin 4, concealing.entryOf (concealing.tapKey concealing.b i.val) = none) ∧
      build.a.number = build.b.number ∧ concealing.weight ≤ 256 ∧
      ({ concealing with holds := concealing.holds ++ [(⟨0, 0, 0, 0⟩, 63)] } : Build).entryOf
        (concealing.tapKey concealing.b 0) = some 63 := by decide +kernel

def slateRead (n : Nat) : State :=
  answering 257 false (.fetch 1 (.slate 0 0 8))
    (withOutput { runningOutput with
      builder := { runningOutput.builder with
        queue := [⟨0, 0, 2, 2, 0⟩]
        run := some ⟨2, 0, 1024, List.replicate n ⟨0, 8, none⟩⟩ } } capturing)

theorem witness_slateAnswer :
    (slateRead 2).answers (.read (BitVec.ofNat 9 (256 + (1 : OutId).val)) [⟨.okay, [1]⟩])
        ⟨257, false, .fetch 1 (.slate 0 0 8)⟩ ∧
      (slateRead 2).outputs[1].builder.queue = [⟨0, 0, 2, 2, 0⟩] ∧
      (slateRead 2).outputs[1].builder.run = some ⟨2, 0, 1024, List.replicate 2 ⟨0, 8, none⟩⟩ ∧
      (slateRead 1).outputs[1].builder.run = some ⟨2, 0, 1024, List.replicate 1 ⟨0, 8, none⟩⟩ ∧
      (slateRead 1).answers (.read (BitVec.ofNat 9 (256 + (1 : OutId).val)) [⟨.okay, [1]⟩])
        ⟨257, false, .fetch 1 (.slate 0 0 8)⟩ := by
  unfold State.answers; decide +kernel

/-- A run of one beat at the head of a burst of two, with a burst behind it; its one read is out. -/
def slateHead : State :=
  answering 257 false (.fetch 1 (.slate 0 0 4))
    (withOutput { runningOutput with
      builder := { runningOutput.builder with
        queue := [⟨0, 0, 2, 2, 0⟩, ⟨1, 0, 2, 1, 0⟩]
        run := some ⟨1, 0, 1024, [⟨0, 4, none⟩]⟩ } } { capturing with reads := [⟨0, 3, [], false⟩] })

theorem witness_slateAnswer_inside :
    slateHead.answers (.read (BitVec.ofNat 9 (256 + (1 : OutId).val)) [⟨.okay, [1, 2, 3, 4]⟩])
        ⟨257, false, .fetch 1 (.slate 0 0 4)⟩ ∧ slateHead.noticeHolds ∧
      slateHead.outputs[1].builder.queue = ⟨0, 0, 2, 2, 0⟩ :: [⟨1, 0, 2, 1, 0⟩] ∧
      slateHead.outputs[1].builder.run = some ⟨1, 0, 1024, [⟨0, 4, none⟩]⟩ ∧
      (slateRead 1).noticeHolds ∧ (slateRead 2).noticeHolds := by
  unfold State.answers State.noticeHolds; decide +kernel

/-- A run of two pages: a stored byte, the fill colour where the second page's read failed, and zero in the
padding (R109, R111). -/
theorem test_shown_at :
    let run : SlateRun := ⟨2, 4096, 4104, [⟨4092, 4, some (some [1, 2, 3, 4])⟩, ⟨4096, 8, some none⟩]⟩
    run.shownAt ⟨100, 200, 300⟩ 4093 = 2 ∧ run.shownAt ⟨100, 200, 300⟩ 4098 = 100 ∧
      run.shownAt ⟨100, 200, 300⟩ 4104 = 0 := by decide +kernel

/-- The run's beat is answered from the bytes as stored; the burst's next beat, of a line without a slate,
starts a build (R111). -/
theorem test_slate_run_inside :
    (after (.slateReadResponse 1 [⟨.okay, [1, 2, 3, 4]⟩]) slateHead).reads =
        [⟨0, 3, [⟨.okay, [1, 2, 3, 4]⟩], false⟩] ∧
      (after (.slateReadResponse 1 [⟨.okay, [1, 2, 3, 4]⟩]) slateHead).outputs[1].builder.queue =
        [⟨0, 0, 2, 2, 1⟩, ⟨1, 0, 2, 1, 0⟩] := by decide +kernel

def building (d : Build) : State :=
  withOutput { runningOutput with
    builder := { runningOutput.builder with
      build := some d
      buffers := runningOutput.builder.buffers.set 0 ⟨.building, some 0, some 4, false, []⟩ } }
    { capturing with
      cache := { capturing.cache with
        entries := capturing.cache.entries.map fun e => { e with state := .valid, uses := 1 } } }

theorem witness_buildCompletion :
    (building build).noticeHolds ∧ (building build).outputs[1].builder.build = some build ∧
      (building build).canComplete build = true ∧ (building build).outputs[1].ctx.retired = none ∧
      (building { build with holds := [] }).canComplete { build with holds := [] } = false := by
  unfold State.noticeHolds; decide +kernel

/-- The same build with the line of entry 0 FAULTED and its context retired with a use count of `n`. -/
def retiring (n : Nat) : State :=
  let s := withOutput { (building build).outputs[1] with
    ctx := { runningOutput.ctx with retired := some { held with uses := n } } } (building build)
  { s with cache := s.cache.put 0 { s.cache.entries[(0 : EntryId)] with state := .faulted } }

theorem witness_buildCompletion_retired :
    (retiring 1).noticeHolds ∧ (retiring 1).outputs[1].builder.build = some build ∧
      (retiring 1).canComplete build = true ∧
      (retiring 1).outputs[1].ctx.retired = some { held with uses := 1 } ∧
      (retiring 2).outputs[1].ctx.retired = some { held with uses := 2 } ∧
      (∃ h ∈ build.holds, (retiring 1).cache.entries[h.2].state = .faulted) := by
  unfold State.noticeHolds; decide +kernel

/-- A faulty build marks the output record when the counter is at its top and FETCH_ERROR is set already; the
retired context is gone, and its records are free of its pins (R77, R107). -/
theorem test_faulty_completion :
    let s := withOutput { (retiring 1).outputs[1] with
      word := 0x0010, report := { runningOutput.report with fetchErrors := 65535 } } (retiring 1)
    .record (.output 1) ∈ (after (.lineBuildCompletion 1) s).class3 ∧
      (after (.lineBuildCompletion 1) s).outputs[1].ctx.retired = none := by decide +kernel

/-- Two held contexts that bear one id: a build for the bottom lines uses the bottom one alone (R77, R80). -/
theorem test_same_ids :
    let c : Contexts := { runningOutput.ctx with heldWhole := none, heldTop := some held, heldBottom := some held }
    c.changeUser .bottom (·.addClips 9) = { c with heldBottom := some (held.addClips 9) } := by
  decide +kernel

/-! ### Timing -/

def starting : State := withOutput { stoppedOutput with state := .starting } capturing

theorem witness_referencePulse :
    starting.resetting = false ∧ starting.outputs[1].config = some outputConfig ∧
      outputConfig.ref = .refA ∧ starting.outputs[1].state = .starting ∧
      running.outputs[1].state = .running ∧ running.outputs[1].gen.left = 0 ∧
      running.outputs[1].gen.next = firstParity outputConfig.order := by decide +kernel

/-- A STARTING output starts, and a RUNNING one away from its frame start realigns (R53, R57). -/
theorem test_reference_pulse :
    (after (.referencePulse .refA) starting).outputs[1].gen = ⟨true, 1080000, .whole⟩ ∧
      (after (.referencePulse .refA)
        (withOutput { runningOutput with gen := ⟨true, 5, .whole⟩ } capturing)).outputs[1].word
        &&& 0x0100 = 0x0100 := by decide +kernel

/-- Output 1 STARTING interlaced, and RUNNING away from its frame start. -/
def startingFields : State :=
  withOutput { stoppedOutput with
    state := .starting, config := some { outputConfig with rate := .i50, order := some .tff } } capturing
def astray : State := withOutput { runningOutput with gen := ⟨true, 5, .whole⟩ } capturing

theorem witness_takesPulse :
    starting.outputs[1].takesPulse .refA outputConfig .start ∧
      astray.outputs[1].takesPulse .refA outputConfig .realign ∧
      startingFields.outputs[1].takesPulse .refA { outputConfig with rate := .i50, order := some .tff } .start ∧
      (∀ c cause, ¬ stopped.outputs[1].takesPulse .refA c cause) ∧
      (∀ c cause, ¬ running.outputs[1].takesPulse .refA c cause) := by
  refine ⟨?_, ?_, ?_, ?_, ?_⟩
  case refine_4 => rintro c cause ⟨-, -, ⟨-, h⟩ | ⟨-, h, -⟩⟩ <;> exact absurd h (by decide +kernel)
  case refine_5 =>
    rintro c cause ⟨⟨⟩, -, ⟨-, h⟩ | ⟨-, -, h, -⟩⟩
    · exact absurd h (by decide +kernel)
    · exact h (by decide +kernel)
  all_goals unfold Output.takesPulse; decide +kernel

/-- A start of an interlaced output leaves the placeholder of the second field; of two latches the second has
the next id; a start sets no REF_REALIGN (R53, R63, R79). -/
theorem test_start :
    let x := (after (.referencePulse .refA) startingFields).outputs[1]
    (x.ctx.heldTop.map fun y => (y.id, y.number)) = some (0, 0) ∧
      (x.ctx.heldBottom.map fun y => (y.kind, y.id, y.number)) = some (.empty, 1, 0) ∧ x.ctx.nextId = 2 ∧
      x.word &&& 0x0100 = 0 := by decide +kernel

theorem witness_underflow :
    running.resetting = false ∧ running.outputs[1].config = some outputConfig ∧
      running.outputs[1].gen.counting = true ∧ running.outputs[1].gen.left = 0 ∧
      running.outputs[1].gen.next = firstParity outputConfig.order ∧
      stopped.outputs[1].gen.counting = false := by decide +kernel

/-- Leaving FREEZE with a frozen context; a replaced context that a build uses, its line READY (R76, R136). -/
theorem witness_underflow_contexts :
    stopping.outputs[1].modes.mode = .freeze ∧ stopping.outputs[1].ctx.frozen.isSome = true ∧
      stopping.outputs[1].gen.counting = true ∧ stopping.outputs[1].gen.left = 0 ∧
      running.outputs[1].modes.mode ≠ .freeze ∧ running.outputs[1].ctx.frozen = none ∧
      half.ctx.held half.gen.next = some { held with uses := 1 } ∧
      half.builder.buffers[(1 : Fin 2)].context = some held.id := by decide +kernel

/-- The mode state of a RUNNING output in FREEZE, with a hold limit of 2. -/
def frozen (n : Nat) (expired : Bool) : Modes :=
  { runningOutput.modes with mode := .freeze, holdLimit := 2, holdCount := n, expired := expired }

/-- Entering FREEZE with a CONVERT context held; in FREEZE with the feed LOST, below the limit and at it; each
injection at its edge. Where the output stands is `witness_underflow`. -/
theorem witness_frameStart :
    { runningOutput.modes with pending := some .freeze }.mode ≠ .freeze ∧ held.kind = .convert ∧
      runningOutput.ctx.heldWhole = some held ∧ runningOutput.ctx.heldTop = none ∧
      runningOutput.ctx.heldBottom = none ∧
      (withFeed { onFeed with cadence := { onFeed.cadence with state := .lost } }
        running).feeds[outputConfig.feed].cadence.state = .lost ∧
      running.feeds[outputConfig.feed].cadence.state ≠ .lost ∧
      (frozen 0 false).holdCount + 1 < (frozen 0 false).holdLimit ∧
      (frozen 1 false).holdCount + 1 = (frozen 1 false).holdLimit ∧ (frozen 1 false).expired = false ∧
      runningOutput.modes.injection = .none_ := by decide +kernel

/-- The hold at a limit of 0; a count at its limit that is not expired, and one that is; two CONVERT contexts
of an interlaced output; in FREEZE without a frozen context (R135, R137). -/
theorem witness_frameStart_edges :
    { frozen 255 false with holdLimit := 0 }.holdLimit = 0 ∧
      (frozen 2 false).holdLimit ≤ (frozen 2 false).holdCount ∧ (frozen 2 false).expired = false ∧
      (frozen 1 true).holdLimit ≤ (frozen 1 true).holdCount + 1 ∧ (frozen 1 true).expired = true ∧
      0 < (held.number - ({ held with number := 2 } : Context).number).toInt ∧
      0 < ((0 : SampleNo) - 0xFFFFFFFF).toInt ∧
      (frozen 0 false).mode = .freeze ∧ runningOutput.ctx.frozen = none := by decide +kernel

/-- Entering FREEZE with two fields held freezes the later one, across the wrap of the counter (R135; log entry
35). -/
theorem test_freeze_the_later_field :
    ((after (.underflow 1) (withOutput { runningOutput with
      config := some { outputConfig with rate := .i50, order := some .tff }
      gen := ⟨true, 0, .top⟩
      modes := { runningOutput.modes with pending := some .freeze }
      ctx := { runningOutput.ctx with
        heldWhole := none, heldTop := some { held with number := 0xFFFFFFFF, weight := 1 }
        heldBottom := some { held with number := 0, weight := 2 } } } capturing)).outputs[1].ctx.frozen.map
      (·.weight)) = some 2 := by decide +kernel

/-- A CONTINUOUS slate makes a SLATE context; a frame that brings the hold count to its limit while the feed is
LOST sets HOLD_EXPIRED (R65, R137, R144). -/
theorem test_frame_start :
    ((after (.underflow 1) (withOutput
        { runningOutput with modes := { runningOutput.modes with injection := .continuous } }
        running)).outputs[1].ctx.heldWhole.map fun x => (x.kind, x.a)) = some (.slate, none) ∧
      (after (.underflow 1) (withOutput { runningOutput with modes := frozen 1 false }
        (withFeed { onFeed with cadence := { onFeed.cadence with state := .lost } }
          capturing))).outputs[1].word &&& 0x0040 = 0x0040 := by decide +kernel

/-- The latch of a RUNNING output at tick 10: record 6 alone, an underrun (R72). -/
theorem test_underflow :
    ((after (.underflow 1) { running with tick := 10 }).outputs[1].ctx.heldWhole.map fun x =>
      (x.number, x.weight, x.flags)) =
      some (4, 0, ⟨true, false, false, false⟩) := by decide +kernel

/-- An underrun latch counts, and a counter at its top stays (R72, R81). -/
theorem test_underrun_count :
    (after (.underflow 1) { running with tick := 10 }).outputs[1].ctx.underruns = 1 ∧
      (after (.underflow 1) { withOutput { runningOutput with
        ctx := { runningOutput.ctx with underruns := 65535 } } capturing with
          tick := 10 }).outputs[1].ctx.underruns = 65535 := by decide +kernel

def refPresent (n : Nat) : State := { quiet with refA := ⟨true, 0⟩, tick := BitVec.ofNat 40 n }

theorem witness_timers :
    (refPresent 2159999).refA.present = true ∧
      ((refPresent 2159999).tick - (refPresent 2159999).refA.lastPulse).toInt < 2160000 ∧
      2160000 ≤ ((refPresent 2160000).tick - (refPresent 2160000).refA.lastPulse).toInt ∧
      capturing.feeds[0].cadence.lossTimer ≠ some 0 ∧
      (withFeed { onFeed with cadence := { onFeed.cadence with lossTimer := some 0 } }
        quiet).feeds[0].cadence.lossTimer = some 0 ∧
      (∀ f : FeedId, capturing.feeds[f].cadence.lossTimer ≠ some 0) ∧
      (∀ o : OutId, capturing.outputs[o].gen.counting = true → capturing.outputs[o].gen.left ≠ 0) ∧
      capturing.refA.present = false ∧ capturing.refB.present = false := by decide +kernel

/-! ### Functions -/

theorem witness_slotChoice :
    onFeed.chooseSlot 3 = some 2 ∧ pinned.feeds[0].chooseSlot 3 = none ∧
      (∀ r ∈ onFeed.history, (r.number - 6).toNat < 2 ^ 31) := by decide +kernel

/-- The bands of R31: Ps 1,080,000 with a shift of 5 leaves 33,750. -/
theorem witness_sampleStart :
    onFeed.cadence.state ≠ .lost ∧ onFeed.cadence.seedPending = false ∧
      (((1113850 : Tick) - onFeed.cadence.lastRaw).toInt - feedConfig.period).natAbs
        ≤ feedConfig.period / 2 ^ feedConfig.tolShift ∧
      feedConfig.period / 2 ^ feedConfig.tolShift <
        (((1113851 : Tick) - onFeed.cadence.lastRaw).toInt - feedConfig.period).natAbs := by
  decide +kernel

/-- The seed by LOST and by the mark; the third irregular interval in a row in LOCKED; the lock count reached.
-/
theorem witness_sampleStart_moves :
    { onFeed.cadence with state := .lost }.state = .lost ∧
      { onFeed.cadence with state := .seeking, seedPending := true }.state ≠ .lost ∧
      { onFeed.cadence with irregularRun := 2 }.state = .locked ∧
      (sampleStart feedConfig 1080100 none
        { onFeed.cadence with state := .seeking, regularRun := 1 }).cadence.regularRun
        = feedConfig.lockCount := by decide +kernel

/-- Two COMPLETE records around the target, with the target on the first. -/
def early : SampleRecord := ⟨1, 0, .whole, 256, .complete, [], 1, 0⟩
def late : SampleRecord := ⟨2, 1, .whole, 768, .complete, [], 1, 0⟩

theorem witness_selection :
    Stamp.atOrBefore early.stamp 256 = true ∧ Stamp.atOrBefore late.stamp 256 = false ∧
      ([early, late] : List SampleRecord) = [] ++ early :: [late] ∧
      ([early, late] : List SampleRecord) = [early] ++ late :: [] ∧
      Stamp.since late.stamp early.stamp = 512 ∧
      ((0 : Nat) : Int) = max 0 (min ((Stamp.since 256 early.stamp * 256 + 512 / 2) / 512) 256) := by
  decide +kernel

/-- The target after every record, before every record, and a history with none COMPLETE. -/
theorem witness_selection_ends :
    Stamp.atOrBefore early.stamp 768 = true ∧ Stamp.atOrBefore late.stamp 768 = true ∧
      ([early, late] : List SampleRecord) = [early] ++ late :: [] ∧
      Stamp.atOrBefore early.stamp 255 = false ∧ Stamp.atOrBefore late.stamp 255 = false ∧
      ([early, late] : List SampleRecord) = [] ++ early :: [late] ∧
      (∀ r ∈ [{ early with status := .partial_ }, { late with status := .filling }],
        r.status ≠ .complete) := by decide +kernel

theorem witness_bounds :
    (∀ x ∈ [(-512 : Int), -512, -512, -512], -512 ≤ x ∧ x ≤ 511) ∧ (∀ v ∈ [1023, 1023], v ≤ 1023) ∧
      (-2095104 : Int).natAbs ≤ 2095104 := by decide

theorem witness_positions :
    128 ≤ 128 ∧ 128 ≤ 256 ∧ 128 ≤ 2 * 256 ∧ 256 ≤ 2 * 128 ∧ 255 < 256 ∧
      (Parity.bottom ≠ .whole → 128 % 2 = 0) := by decide

theorem witness_lookup :
    (filling 1).cache.find ⟨0, 1, 0, 5⟩ = some 63 ∧ (filling 1).cache.find ⟨0, 1, 0, 6⟩ = none ∧
      (filling 1).cache.entries[(0 : EntryId)].state = .free := by decide +kernel

/-- A FAULTED entry and a marked one in their last use, a VALID one unmarked, and one with two uses (R125). -/
theorem witness_release :
    let e := line 0 3 1
    ({ e with state := .faulted }.uses ≤ 1 ∧ { e with state := .faulted }.state = .faulted) ∧
      ({ e with drop := true }.uses ≤ 1 ∧ { e with drop := true }.state = .valid ∧
        { e with drop := true }.drop = true) ∧
      (e.state = .valid ∧ e.drop = false) ∧ 1 < (line 0 3 2).uses := by decide

/-- At the last use a marked entry becomes FREE, an unmarked one stays VALID (R125). -/
theorem test_release :
    ((cached.put 1 { line 0 4 1 with drop := true }).release 1) =
        { cached.put 1 CacheEntry.freed with order := [2, 0] } ∧
      cached.release 1 = cached.put 1 (line 0 4 0) := by decide +kernel

/-! ### Invariants -/

/-- A LOCKED feed in CAPTURING with its history keeps R4 to R43. -/
theorem witness_feeds : onFeed.Holds where
  idle := by decide +kernel
  current := by decide +kernel
  filling := by decide +kernel
  timer := by decide +kernel
  configured := by decide +kernel
  period := by intro c h _; cases h; decide +kernel
  monitor := by intro c h; cases h; decide +kernel
  geometry := by intro c h; cases h; decide +kernel
  places := by decide +kernel

/-- The stamps of record 6 and record 7 rise, and lie near the tick; so do those of the feeds that hold none. -/
theorem witness_stamps :
    capturing.feedsHold ∧ capturing.stampsRise ∧ capturing.stampsNear ∧
      completes (.ingestWrite (write 3 (inWindow 0) 8)) capturing = true := by
  refine ⟨fun f => ?_, by unfold State.stampsRise; decide +kernel, fun f h => ?_, by decide +kernel⟩
  · by_cases h : f = 0
    · subst h; exact witness_feeds
    · have none_ : capturing.feeds[f].config = none := by revert f; decide +kernel
      exact {
        idle := by revert f; decide +kernel
        current := by revert f; decide +kernel
        filling := by revert f; decide +kernel
        timer := by revert f; decide +kernel
        configured := by revert f; decide +kernel
        period := by intro c k; cases none_.symm.trans k
        monitor := by intro c k; cases none_.symm.trans k
        geometry := by intro c k; cases none_.symm.trans k
        places := by revert f; decide +kernel }
  · have : f = 0 := by revert f; decide +kernel
    subst this
    exact ⟨0, by decide +kernel⟩

/-- Record 6 with the pin of the held context, and a latch that replaces it. -/
def pinning : State :=
  withOutput runningOutput (withFeed { onFeed with
    history := [⟨6, 1, .whole, 256, .complete, [], 128, 1⟩, ⟨7, 0, .whole, 25600, .filling, [], 0, 0⟩] } quiet)

theorem uses_of_idle (x : Output) (h1 : x.builder.build = none) (h2 : x.ctx.retired = none)
    (h3 : ∀ y, (x.ctx.heldWhole = some y ∨ x.ctx.heldTop = some y ∨ x.ctx.heldBottom = some y) → y.uses = 0)
    (h4 : x.ctx.frozen = none) : x.Uses where
  idle _ := ⟨h2, fun p y h => h3 y (by cases p <;> simp_all [Contexts.held])⟩
  retired d _ h := by simp [h1] at h
  held d h := by simp [h1] at h
  frozen h := by simp [h4] at h

theorem witness_pins :
    pinning.pinsHold ∧ pinning.numbersFresh ∧ pinning.outputsHold ∧
      completes (.underflow 1) pinning = true := by
  refine ⟨⟨?_, fun o => uses_of_idle _ ?_ ?_ ?_ ?_⟩, ?_, fun o => ?_, ?_⟩
  · decide +kernel
  · revert o; decide +kernel
  · revert o; decide +kernel
  · intro y h
    fin_cases o <;>
      simp_all [pinning, withOutput, runningOutput, stoppedOutput, Output.configured, Output.initial,
        Contexts.initial, withFeed, quiet, State.reset, State.initial]
    subst h; rfl
  · revert o; decide +kernel
  · unfold State.numbersFresh; decide +kernel
  · by_cases h : o = 1
    · subst h; exact witness_outputs
    · exact holds_of_idle _ (by revert o; decide +kernel) (by revert o; decide +kernel)
        (by revert o; decide +kernel) (by revert o; decide +kernel) (by revert o; decide +kernel)
  · decide +kernel

/-- The latch takes the pin of record 6 from the old context to the new one (R75, R76). -/
theorem test_latch_moves_the_pin :
    (after (.underflow 1) { pinning with tick := 10 }).feeds[0].history.map (·.pins) = [1, 0] := by
  decide +kernel

/-- One context that names one record twice, and a record it does not name. -/
theorem witness_pinsOn :
    (∀ a b, held.a = some a → held.b = some b → a.feed = b.feed) ∧
      (∃ r, (held.a = some r ∨ held.b = some r) ∧ r.feed = 0 ∧ r.number = 6) ∧
      (∀ r, held.a = some r ∨ held.b = some r → r.feed = 0 → r.number ≠ 7) := by
  refine ⟨?_, ⟨⟨0, 6, 1, .whole, 256⟩, by decide⟩, ?_⟩
  · intro a b h1 h2; cases h1; cases h2; rfl
  · rintro r (h | h) - <;> cases h <;> decide

theorem witness_map : stopped.mapHolds ∧ completes .tick running = true := by
  unfold State.mapHolds; decide +kernel

/-- SET_MASKS changes the mask at offset 26 of feed 0's record, and marks it (R195, R197). -/
theorem witness_marks :
    let s : State := { quiet with pending := [.setMasks (cell 0 0 1 0 0 0 0)] }
    let t := after (.setMasks (cell 0 0 1 0 0 0 0)) quiet
    s.noticeHolds ∧ completes (.setMasks (cell 0 0 1 0 0 0 0)) quiet = true ∧ t.resetting = false ∧
      (t.recordContent (.feed 0)).getD 26 0 ≠ (s.recordContent (.feed 0)).getD 26 0 ∧
      t.class3 = [.record .device, .record (.feed 0)] := by
  unfold State.noticeHolds; decide +kernel

/-- The state right after reset, and a step from it. -/
theorem witness_invariants :
    State.reset.noticeHolds ∧ State.reset.withinLimits ∧ State.reset.tablesValid ∧ State.reset.serialsHold ∧
      completes .memoryPortGrant State.reset = true := by
  unfold State.noticeHolds State.withinLimits State.tablesValid State.serialsHold; decide +kernel

theorem witness_requests : (third (.trace 1 63 [])).requestsOnce ∧
    completes .memoryPortGrant (third (.trace 1 63 [])) = true :=
  ⟨⟨fun _ => Nat.le_trans (List.length_filter_le _ _) (by decide),
    fun _ _ => Nat.le_trans (List.length_filter_le _ _) (by decide)⟩, by decide +kernel⟩

end Sys2Proof.Tests
end

section
/-! The queue of waiting commands and events is outside the part (log entry 1): every operation of the part
leaves it, so every command and event does. The operations stand in the order of the model's files. -/

namespace Sys2Proof.Machine

/-- A frame that does not name the queue keeps it. -/
theorem State.pending_of_changesOnly {ps : List Part} {s t : State} (h : s.changesOnly ps t)
    (q : Part.queue ∉ ps) : t.pending = s.pending := h .queue q

/-! ### The Line Builder -/

@[simp] theorem State.lookupAll_pending (o : OutId) (b : Build) (ks : List CacheKey) (s : State) :
    (s.lookupAll o b ks).1.pending = s.pending :=
  State.pending_of_changesOnly (State.lookupAll_changesOnly o b ks s) (by simp)

@[simp] theorem State.conceal_pending (o : OutId) (s : State) : (s.conceal o).pending = s.pending := by
  unfold State.conceal
  split
  · rfl
  · split <;> simp

@[simp] theorem State.startBuild_pending (o : OutId) (y : Nat) (s : State) :
    (s.startBuild o y).pending = s.pending :=
  State.pending_of_changesOnly (s.startBuild_changesOnly o y) (by simp)

@[simp] theorem State.answerHead_pending (o : OutId) (bytes : List Byte) (i : Option (Fin 2)) (s : State) :
    (s.answerHead o bytes i).pending = s.pending := by
  unfold State.answerHead
  split <;> simp

@[simp] theorem State.offerSlate_pending (w : WaitingSlate) (s : State) :
    (s.offerSlate w).pending = s.pending := by
  unfold State.offerSlate
  split <;> simp

@[simp] theorem State.releaseSlate_pending (s : State) : s.releaseSlate.pending = s.pending :=
  foldl_keeps State.pending _ (fun s w => s.offerSlate_pending w) _ _

@[simp] theorem State.startRun_pending (o : OutId) (page : Page) (s : State) :
    (s.startRun o page).pending = s.pending := by
  unfold State.startRun
  split
  · exact (foldl_keeps State.pending _ (fun s _ => s.offerSlate_pending _) _ _).trans
      (State.modifyBuilder_pending ..)
  · rfl

@[simp] theorem State.serve_pending (n : Nat) (o : OutId) (s : State) :
    (State.serve n o s).pending = s.pending := by
  induction n generalizing s with
  | zero => rfl
  | succ n ih =>
    unfold State.serve
    split
    · rfl
    · split
      · rfl
      · split <;> simp [ih]

@[simp] theorem State.takeHead_pending (o : OutId) (s : State) : (s.takeHead o).pending = s.pending :=
  State.serve_pending _ o s

@[simp] theorem State.answerRun_pending (n : Nat) (o : OutId) (r : SlateRun) (s : State) :
    (State.answerRun n o r s).pending = s.pending := by
  induction n generalizing s with
  | zero => rfl
  | succ n ih =>
    unfold State.answerRun
    split
    · rfl
    · exact (ih _).trans (State.answerHead_pending ..)

@[simp] theorem State.slateAnswer_pending (o : OutId) (i : Nat) (beats : List ReadBeat) (s : State) :
    (s.slateAnswer o i beats).pending = s.pending := by
  unfold State.slateAnswer
  split
  · rfl
  · simp [apply_ite State.pending]

@[simp] theorem State.retire_pending (o : OutId) (x : Context) (s : State) :
    (s.retire o x).pending = s.pending :=
  State.pending_of_changesOnly (s.retire_changesOnly o x) (by simp [feedParts])

@[simp] theorem State.releaseRetired_pending (o : OutId) (s : State) :
    (s.releaseRetired o).pending = s.pending := by
  unfold State.releaseRetired
  split
  · rfl
  · split <;> simp

@[simp] theorem State.prefetch_pending (o : OutId) (y : Nat) (s : State) :
    (s.prefetch o y).pending = s.pending := by
  unfold State.prefetch
  split <;> simp

@[simp] theorem State.completeBuild_pending (o : OutId) (b : Build) (s : State) :
    (s.completeBuild o b).pending = s.pending := by
  unfold State.completeBuild
  simp only [State.prefetch_pending, State.takeHead_pending, State.releaseRetired_pending]
  split <;> simp

@[simp] theorem State.buildCompletion_pending (o : OutId) (s : State) :
    (s.buildCompletion o).pending = s.pending := by
  unfold State.buildCompletion
  split
  · rfl
  · split <;> simp

@[simp] theorem State.outputRead_pending (o : OutId) (b : Burst) (s : State) :
    (s.outputRead o b).pending = s.pending := by
  unfold State.outputRead
  split
  · rfl
  · simp only
    split <;> simp

@[simp] theorem State.fillAnswer_pending (e : EntryId) (beats : List ReadBeat) (s : State) :
    (s.fillAnswer e beats).pending = s.pending := by
  unfold State.fillAnswer
  simp only
  split
  · rfl
  · refine foldl_keeps State.pending _ (fun s o => ?_) _ _
    split
    · split <;> simp
    · rfl

@[simp] theorem State.blackOut_pending (o : OutId) (s : State) : (s.blackOut o).pending = s.pending := by
  unfold State.blackOut
  split
  · rfl
  · refine foldl_keeps State.pending _ (fun _ _ => ?_) _ _
    rfl

/-! ### The Ingest Tracker -/

@[simp] theorem State.feedEvent_pending (f : FeedId) (e : FeedEvent) (s : State) :
    (s.feedEvent f e).pending = s.pending :=
  State.pending_of_changesOnly (s.feedEvent_changesOnly f e) (by simp [outputParts])

@[simp] theorem State.anchor_pending (f : FeedId) (c : FeedConfig) (a : Anchor) (p : Parity) (s : State) :
    (s.anchor f c a p).pending = s.pending := by
  unfold State.anchor
  refine (foldl_keeps State.pending _ (fun s e => s.feedEvent_pending f e) _ _).trans ?_
  rw [State.putFeed_pending]
  split <;> simp

@[simp] theorem State.takeAnchor_pending (f : FeedId) (c : FeedConfig) (x : Nat) (s : State) :
    (s.takeAnchor f c x).pending = s.pending := by
  unfold State.takeAnchor
  split
  · rfl
  · split <;> simp

@[simp] theorem State.steerWrite_pending (f : FeedId) (c : FeedConfig) (b : Burst) (s : State) :
    (s.steerWrite f c b).pending = s.pending := by
  simp only [State.steerWrite]
  split <;> simp

@[simp] theorem State.ingestWrite_pending (f : FeedId) (b : Burst) (s : State) :
    (s.ingestWrite f b).pending = s.pending := by
  unfold State.ingestWrite
  split <;> simp

@[simp] theorem State.ingestRead_pending (f : FeedId) (b : Burst) (s : State) :
    (s.ingestRead f b).pending = s.pending := by
  unfold State.ingestRead
  split <;> simp

@[simp] theorem State.ingestResponse_pending (a : IngestAccount) (resp : Resp) (s : State) :
    (s.ingestResponse a resp).pending = s.pending := by
  unfold State.ingestResponse
  refine (foldl_keeps State.pending _ (fun s _ => s.notify_pending _) _ _).trans ?_
  split <;> simp

@[simp] theorem State.enterLost_pending (f : FeedId) (s : State) : (s.enterLost f).pending = s.pending := by
  simp [State.enterLost]

/-! ### The Phase Unit -/

@[simp] theorem State.dropHeld_pending (o : OutId) (p : Parity) (s : State) :
    (s.dropHeld o p).pending = s.pending := by
  unfold State.dropHeld
  split <;> simp

@[simp] theorem State.dropFrozen_pending (o : OutId) (s : State) : (s.dropFrozen o).pending = s.pending :=
  State.pending_of_changesOnly (s.dropFrozen_changesOnly o) (by simp [feedParts])

@[simp] theorem State.latch_pending (o : OutId) (p : Pulse) (s : State) :
    (s.latch o p).pending = s.pending :=
  State.pending_of_changesOnly (s.latch_changesOnly o p) (by simp [feedParts])

@[simp] theorem State.giveUpContexts_pending (o : OutId) (s : State) :
    (s.giveUpContexts o).pending = s.pending := by
  simp [State.giveUpContexts]

/-! ### The Timing Generator -/

@[simp] theorem State.referenceAbsent_pending (r : Ref) (s : State) :
    (s.referenceAbsent r).pending = s.pending := by
  unfold State.referenceAbsent
  split <;> simp

@[simp] theorem State.loadGenerator_pending (o : OutId) (g : Generator) (s : State) :
    (s.loadGenerator o g).pending = s.pending := State.modifyOutput_pending ..

@[simp] theorem State.offerPulse_pending (r : Ref) (o : OutId) (s : State) :
    (s.offerPulse r o).pending = s.pending := by
  simp only [State.offerPulse]
  split
  · rfl
  · split
    · rfl
    · split
      · rfl
      · rfl
      · simp [State.beginOutput]
      · split <;> simp [State.realign]

@[simp] theorem State.referencePulse_pending (r : Ref) (s : State) :
    (s.referencePulse r).pending = s.pending :=
  (foldl_keeps State.pending _ (fun s o => s.offerPulse_pending r o) _ _).trans (State.putRef_pending ..)

@[simp] theorem State.underflow_pending (o : OutId) (s : State) : (s.underflow o).pending = s.pending := by
  simp only [State.underflow]
  split
  · rfl
  · split <;> simp

@[simp] theorem State.lossExpiry_pending (f : FeedId) (s : State) :
    (s.lossExpiry f).pending = s.pending := by
  unfold State.lossExpiry
  split <;> simp

@[simp] theorem State.settleTick_pending (s : State) : s.settleTick.pending = s.pending :=
  calc s.settleTick.pending
      = (allFeeds.foldl (fun s f => s.lossExpiry f)
          ((s.referenceAbsent .refA).referenceAbsent .refB)).pending :=
        foldl_keeps State.pending _ (fun s o => s.underflow_pending o) _ _
    _ = ((s.referenceAbsent .refA).referenceAbsent .refB).pending :=
        foldl_keeps State.pending _ (fun s f => s.lossExpiry_pending f) _ _
    _ = s.pending := by simp

@[simp] theorem State.advance_pending (s : State) : s.advance.pending = s.pending := rfl

/-! ### The Command Unit -/

/-- A command checked and carried out keeps the queue when its effect does (R169). -/
@[simp] theorem State.judge_pending {act : State → State} (c : CellId) (r : Refused) {s : State}
    (h : (act s).pending = s.pending) : (s.judge c r act).pending = s.pending := by
  unfold State.judge
  split <;> simp [h]

@[simp] theorem State.onQuad_pending {act : Fin 4 → State → State} (w : CellWrite) {s : State}
    (h : ∀ i, (act i s).pending = s.pending) : (s.onQuad w act).pending = s.pending := by
  unfold State.onQuad
  split <;> simp [h]

@[simp] theorem State.configureFeed_pending (w : CellWrite) (s : State) :
    (s.configureFeed w).pending = s.pending := by
  simp [State.configureFeed]

@[simp] theorem State.enableFeed_pending (w : CellWrite) (s : State) :
    (s.enableFeed w).pending = s.pending := by
  refine State.onQuad_pending w fun f => ?_
  split <;> simp [State.startFeed]

@[simp] theorem State.disableFeed_pending (w : CellWrite) (s : State) :
    (s.disableFeed w).pending = s.pending := by
  simp [State.disableFeed, State.endFeed]

@[simp] theorem State.rearmMonitor_pending (w : CellWrite) (s : State) :
    (s.rearmMonitor w).pending = s.pending := by
  simp [State.rearmMonitor]

@[simp] theorem State.configureOutput_pending (w : CellWrite) (s : State) :
    (s.configureOutput w).pending = s.pending := by
  simp [State.configureOutput]

@[simp] theorem State.startOutput_pending (w : CellWrite) (s : State) :
    (s.startOutput w).pending = s.pending := by
  refine State.onQuad_pending w fun o => ?_
  split <;> simp [State.beginStarting]

@[simp] theorem State.stopOutput_pending (w : CellWrite) (s : State) :
    (s.stopOutput w).pending = s.pending := by
  refine State.onQuad_pending w fun o => State.judge_pending _ _ ?_
  split
  · simp [State.stopRunning]
  · simp [State.stopStarting]

@[simp] theorem State.setResponse_pending (w : CellWrite) (s : State) :
    (s.setResponse w).pending = s.pending := by
  simp [State.setResponse]

@[simp] theorem State.setSlate_pending (w : CellWrite) (s : State) :
    (s.setSlate w).pending = s.pending := by
  simp [State.setSlate]

@[simp] theorem State.forceMode_pending (w : CellWrite) (s : State) :
    (s.forceMode w).pending = s.pending := by
  simp [State.forceMode]

@[simp] theorem State.releaseMode_pending (w : CellWrite) (s : State) :
    (s.releaseMode w).pending = s.pending := by
  simp [State.releaseMode]

@[simp] theorem State.loadCoefficients_pending (w : CellWrite) (s : State) :
    (s.loadCoefficients w).pending = s.pending := by
  unfold State.loadCoefficients
  split
  · simp
  · split
    · simp
    · rfl

@[simp] theorem State.clearWord_pending (r : RecordSel) (snapshot mask : Conds) (s : State) :
    (s.clearWord r snapshot mask).pending = s.pending := by
  cases r <;> simp [State.clearWord, apply_ite State.pending]

@[simp] theorem State.clearConditions_pending (w : CellWrite) (s : State) :
    (s.clearConditions w).pending = s.pending := by
  unfold State.clearConditions
  split <;> simp

@[simp] theorem State.setMask_pending (r : RecordSel) (mask : Conds) (s : State) :
    (s.setMask r mask).pending = s.pending := by
  cases r <;> simp [State.setMask]

@[simp] theorem State.setMasks_pending (w : CellWrite) (s : State) :
    (s.setMasks w).pending = s.pending := by
  unfold State.setMasks
  split <;> simp

@[simp] theorem State.identify_pending (w : CellWrite) (s : State) :
    (s.identify w).pending = s.pending := by
  unfold State.identify
  split <;> simp

@[simp] theorem State.clearBlocks_pending (s : State) : s.clearBlocks.pending = s.pending := rfl

@[simp] theorem State.abortCells_pending (c : CellId) (s : State) :
    (s.abortCells c).pending = s.pending := by
  refine foldl_keeps State.pending _ (fun s d => ?_) _ _
  split <;> simp

@[simp] theorem State.deviceClear_pending (w : CellWrite) (s : State) :
    (s.deviceClear w).pending = s.pending := by
  have black := foldl_keeps State.pending _ (fun s o => State.blackOut_pending o s) allOutputs s
  simp [State.deviceClear, black]

@[simp] theorem State.runCommand_pending (code : Byte) (w : CellWrite) (s : State) :
    (s.runCommand code w).pending = s.pending := by
  unfold State.runCommand
  split <;> simp

/-- A whole-cell write keeps the queue when the command it brings does (R166, R168). -/
@[simp] theorem State.commandCell_pending {run : CellWrite → State → State} {w : CellWrite}
    (h : ∀ s, (run w s).pending = s.pending) (s : State) : (s.commandCell w run).pending = s.pending := by
  unfold State.commandCell
  split <;> simp [h, State.takeCell]

/-! ### Bursts at the Bus Port -/

@[simp] theorem State.hold_pending (b : Burst) (s : State) : (s.hold b).pending = s.pending := by
  unfold State.hold
  split <;> simp

@[simp] theorem State.offerCell_pending (base : Nat) (b : Burst) (c : CellId) (s : State) :
    (s.offerCell base b c).pending = s.pending := by
  unfold State.offerCell
  split
  · simp
  · split <;> simp

@[simp] theorem State.controlWrite_pending (b : Burst) (s : State) :
    (s.controlWrite b).pending = s.pending :=
  (foldl_keeps State.pending _ (fun s c => s.offerCell_pending _ b c) _ _).trans (State.forward_pending ..)

@[simp] theorem State.refuse_pending (b : Burst) (cond : Conds) (s : State) :
    (s.refuse b cond).pending = s.pending := by
  simp only [State.refuse, State.flush_pending, State.setDevice_pending]
  split <;> simp

/-- What `State.dispatch` can do, by the route of the burst. `State.dispatch` is unfolded as a function, before
it meets its arguments: from its unfolded application the kernel goes on to evaluate the route of an unknown
state, which takes a minute. -/
theorem State.dispatch_elim {P : State → Prop} {b : Burst} {s : State}
    (forwarded : ∀ kind, s.route b = .forwarded kind → P (s.forward b b kind [] []))
    (controlWrite : s.route b = .controlWrite → P (s.controlWrite b))
    (ingestWrite : ∀ f, s.route b = .ingestWrite f → P (s.ingestWrite f b))
    (ingestRead : ∀ f, s.route b = .ingestRead f → P (s.ingestRead f b))
    (outputRead : ∀ o, s.route b = .outputRead o → P (s.outputRead o b))
    (refused : s.route b = .refused → P (s.refuse b burstRefused))
    (toWindow : s.route b = .windowWrite → P (s.refuse b windowWrite)) : P (s.dispatch b) := by
  generalize unfolded : State.dispatch = d
  delta State.dispatch at unfolded
  subst unfolded
  cases h : s.route b with
  | forwarded kind => simpa only [h] using forwarded kind h
  | controlWrite => simpa only [h] using controlWrite h
  | ingestWrite f => simpa only [h] using ingestWrite f h
  | ingestRead f => simpa only [h] using ingestRead f h
  | outputRead o => simpa only [h] using outputRead o h
  | refused => simpa only [h] using refused h
  | windowWrite => simpa only [h] using toWindow h

@[simp] theorem State.dispatch_pending (b : Burst) (s : State) : (s.dispatch b).pending = s.pending := by
  apply State.dispatch_elim (P := fun t => t.pending = s.pending) <;> simp

@[simp] theorem State.presentBurst_pending (b : Burst) (s : State) :
    (s.presentBurst b).pending = s.pending := by
  unfold State.presentBurst
  split <;> simp

theorem State.hostCommand_pending {run : CellWrite → State → State} {w : CellWrite}
    (h : ∀ s, (run w s).pending = s.pending) (code : Byte) (s : State) :
    (s.hostCommand code run w).pending = s.pending := by
  simp only [State.hostCommand]
  split
  · simp [State.acceptCommand, h]
  · simp

/-! ### The arbiter -/

@[simp] theorem State.grantFetch_pending (o : OutId) (s : State) : (s.grantFetch o).pending = s.pending := by
  unfold State.grantFetch
  split <;> simp

@[simp] theorem State.setIdentify_pending (x : IdentifyStage) (c : CellId) (s : State) :
    (s.setIdentify x c).pending = s.pending := by
  unfold State.setIdentify
  split <;> simp

@[simp] theorem State.grantRecord_pending (r : RecordSel) (s : State) :
    (s.grantRecord r).pending = s.pending :=
  (foldl_keeps State.pending _ (fun s c => s.setIdentify_pending _ c) _ _).trans
    (State.countUpdate_pending ..)

@[simp] theorem State.grantResult_pending (c : CellId) (word : Word) (s : State) :
    (s.grantResult c word).pending = s.pending := by
  simp only [State.grantResult, State.addGranted_pending]
  split <;> simp

@[simp] theorem State.grantThird_pending (h : Housekeeping) (rest : List Housekeeping) (s : State) :
    (s.grantThird h rest).pending = s.pending := by
  cases h <;> simp [State.grantThird]

@[simp] theorem State.offerThird_pending (s : State) : s.offerThird.pending = s.pending := by
  unfold State.offerThird
  split
  · rfl
  · split <;> simp

@[simp] theorem State.grant_pending (s : State) : s.grant.pending = s.pending := by
  unfold State.grant
  split
  · rfl
  · split
    · simp
    · split
      · simp
      · split <;> simp [State.grantForwarded]

/-! ### Responses at the Memory Port -/

@[simp] theorem State.hostAnswered_pending (c : CellId) (s : State) :
    (s.hostAnswered c).pending = s.pending := by
  unfold State.hostAnswered
  split <;> simp

@[simp] theorem State.busEffect_pending (r : Forwarded) (resp : Resp) (s : State) :
    (s.busEffect r resp).pending = s.pending := by
  unfold State.busEffect
  split
  · rfl
  · rfl
  · exact foldl_keeps State.pending _ (fun s c => s.hostAnswered_pending c) _ _
  · exact foldl_keeps State.pending _ (fun s _ => s.notify_pending _) _ _
  · simp
  · simp

@[simp] theorem State.identified_pending (c : CellId) (s : State) :
    (s.identified c).pending = s.pending := by
  unfold State.identified
  split
  · rfl
  · split <;> simp

@[simp] theorem State.recordWritten_pending (cells : List CellId) (s : State) :
    (s.recordWritten cells).pending = s.pending :=
  foldl_keeps State.pending _ (fun s c => s.identified_pending c) _ _

@[simp] theorem State.resultWritten_pending (c : CellId) (s : State) :
    (s.resultWritten c).pending = s.pending := by
  unfold State.resultWritten
  split
  · rfl
  · split <;> simp

@[simp] theorem State.loadComplete_pending (k : BankId) (beats : List ReadBeat) (s : State) :
    (s.loadComplete k beats).pending = s.pending := by
  unfold State.loadComplete
  split
  · rfl
  · simp only
    split
    · simp
    · split <;> simp

@[simp] theorem State.fetched_pending (o : OutId) (f : Fetch) (beats : List ReadBeat) (s : State) :
    (s.fetched o f beats).pending = s.pending := by
  cases f <;> simp [State.fetched]

@[simp] theorem State.finish_pending (w : Work) (r : Reply) (s : State) :
    (s.finish w r).pending = s.pending := by
  cases w with
  | bus x => simp [State.finish, State.busWritten, State.busReadBack, apply_ite State.pending]
  | fetch | record | trace | result | table | discarded => simp [State.finish]

/-! ### Reset -/

@[simp] theorem State.enterReset_pending (edge : Bool) (s : State) :
    (s.enterReset edge).pending = s.pending := rfl

@[simp] theorem State.release_pending (straps : BitVec 10) (s : State) :
    (s.release straps).pending = s.pending := State.markAll_pending _

/-! ### The rows of the table -/

/-- What a step of the part from `s` answers leaves the queue of `s`, where it is a next state. -/
def Answer.keepsQueue (s : State) (a : Answer) : Prop := ∀ t, a = .next t → t.pending = s.pending

theorem Answer.next_keepsQueue {s t : State} (h : t.pending = s.pending) :
    Answer.keepsQueue s (.next t) := by
  rintro _ ⟨⟩
  exact h

/-- In reset nothing happens, and out of it the row's own meaning decides (log entry 3). -/
theorem State.unlessReset_keepsQueue {act : State → Answer} {s : State}
    (h : Answer.keepsQueue s (act s)) : Answer.keepsQueue s (s.unlessReset act) := by
  unfold State.unlessReset
  split
  · exact Answer.next_keepsQueue rfl
  · exact h

theorem busRow_keepsQueue (b : Burst) (s : State) : Answer.keepsQueue s (busRow b s) :=
  State.unlessReset_keepsQueue (Answer.next_keepsQueue (s.presentBurst_pending b))

theorem cellRow_keepsQueue {run : CellWrite → State → State} {w : CellWrite}
    (h : ∀ s, (run w s).pending = s.pending) (code : Byte) (s : State) :
    Answer.keepsQueue s (cellRow code run w s) :=
  State.unlessReset_keepsQueue (Answer.next_keepsQueue (State.hostCommand_pending h code s))

theorem State.takeReply_keepsQueue (r : Reply) (s : State) : Answer.keepsQueue s (s.takeReply r) := by
  unfold State.takeReply
  split
  · rintro _ ⟨⟩
  · exact Answer.next_keepsQueue (State.finish_pending ..)

theorem replyRow_keepsQueue (r : Reply) (s : State) : Answer.keepsQueue s (replyRow r s) :=
  State.unlessReset_keepsQueue (s.takeReply_keepsQueue r)

theorem execResetRelease_keepsQueue (straps : BitVec 10) (s : State) :
    Answer.keepsQueue s (execResetRelease straps s) := by
  refine Answer.next_keepsQueue ?_
  split <;> simp

/-- No command or event touches the queue (log entry 1). -/
theorem exec_keepsQueue (c : Instr) (s : State) : Answer.keepsQueue s (exec c s) := by
  have own {act : State → State} (h : (act s).pending = s.pending) :
      Answer.keepsQueue s (s.unlessReset fun s => .next (act s)) :=
    State.unlessReset_keepsQueue (Answer.next_keepsQueue h)
  cases c with
  | configureFeed | enableFeed | disableFeed | rearmMonitor | configureOutput | startOutput | stopOutput
  | setResponse | setSlate | forceMode | releaseMode | loadCoefficients | clearConditions | setMasks
  | identify | deviceClear | unknownCommand => exact cellRow_keepsQueue (by simp) _ s
  | malformedCommandWrite | commandOverrun | controlBlockWrite | passthrough | slateRegionWrite | ingestWrite
  | ingestRead | outputRead | refusedBurst | outputWindowWrite => exact busRow_keepsQueue _ s
  | ingestWriteResponse | forwardedResponse | slotRegionWriteResponse | slateWriteResponse
  | statusRecordWriteResponse | resultWordResponse | coefficientLoadCompletion | lineFillResponse
  | slateReadResponse => exact replyRow_keepsQueue _ s
  | memoryPortGrant => exact own s.grant_pending
  | lineBuildCompletion o => exact own (s.buildCompletion_pending o)
  | referencePulse r => exact own (s.referencePulse_pending r)
  | referenceAbsent r => exact own (s.referenceAbsent_pending r)
  | underflow o => exact own (s.underflow_pending o)
  | lossTimerExpiry f => exact own (s.lossExpiry_pending f)
  | powerUp | resetLine => exact Answer.next_keepsQueue (s.enterReset_pending _)
  | resetRelease straps => exact execResetRelease_keepsQueue straps s
  | tick => exact own (act := fun s => s.settleTick.advance) (by simp)

/-! ### One step -/

theorem step_of_pending_cons {c : Instr} {rest : List Instr} {s : State} (h : s.pending = c :: rest) :
    step s = exec c { s with pending := rest } := by
  simp [step, h]

theorem step_of_pending_nil {s : State} (h : s.pending = []) : step s = .next s := by
  simp [step, h]

/-- Settles O1: the two equations of `step`, and the queue kept by every row of the table. -/
theorem stepRunsTheFrontOfTheQueue : Obligations.StepRunsTheFrontOfTheQueue :=
  ⟨fun _ _ _ h => step_of_pending_cons h, fun _ h => step_of_pending_nil h,
    fun c s t h => exec_keepsQueue c s t h⟩

end Sys2Proof.Machine
end

section
/-! The sample start of a Cadence Tracker (02). The steps of R29 have their lemmas in the order of the model's
definitions; then the three kinds of sample start, and what the manual says of each. -/

namespace Sys2Proof.Machine

/-! ### Keeping E in its range and the stamps in order -/

/-- The lower end of the range of E is not negative, so the clamp's cut to a natural number changes nothing. -/
theorem clampPeriod_eq (c : FeedConfig) (e : Int) :
    (clampPeriod c e : Int) = max (c.period * 256 - c.period : Int) (min e (c.period * 256 + c.period)) :=
  Int.toNat_of_nonneg (le_max_of_le_left (by omega))

theorem monotonic_eq_afterNewest (newest : Option Stamp) (stamp : Stamp) :
    monotonic newest stamp = afterNewest newest stamp := by
  cases newest with
  | none => rfl
  | some n => by_cases h : 0 < Stamp.since stamp n <;> simp [monotonic, afterNewest, Stamp.atOrBefore, h]

theorem Stamp.since_add_256 (n : Stamp) : Stamp.since (n + 256) n = 256 := by
  have distance : n + 256 - n = 256 := by simp
  rw [Stamp.since, distance]
  rfl

/-- The check of R35 leaves a stamp that lies after the newest record's. -/
theorem afterNewest_isAfter (n stamp : Stamp) : 0 < Stamp.since (afterNewest (some n) stamp) n := by
  rw [afterNewest]
  split
  · assumption
  · rw [Stamp.since_add_256]; decide

/-! ### The steps of a sample start -/

@[simp] theorem leaveLost_of_lost {k : Cadence} (lost : k.state = .lost) :
    leaveLost k = ({ k with state := .seeking, seedPending := true }, [.seeking true]) := if_pos lost

@[simp] theorem leaveLost_of_ne_lost {k : Cadence} (live : k.state ≠ .lost) : leaveLost k = (k, []) :=
  if_neg live

theorem leaveLost_seedPending (k : Cadence) :
    (leaveLost k).1.seedPending = true ↔ k.state = .lost ∨ k.seedPending = true := by
  by_cases lost : k.state = .lost <;> simp [lost]

/-- The tracker with its loss timer loaded, the second step of R29. -/
def Cadence.loaded (c : FeedConfig) (k : Cadence) : Cadence := { k with lossTimer := some c.lossLoad }

/-- The last steps of R29, on what the seed rule or the classified interval made: the stamp is checked against
the newest record, and the tracker keeps it and the tick. -/
def finishStart (newest : Option Stamp) (s : Tick) (found : List FeedEvent)
    (made : Cadence × Stamp × Conds × List FeedEvent) : SampleStart :=
  { cadence := { made.1 with lastRaw := s, lastSmoothed := afterNewest newest made.2.1 }
    stamp := afterNewest newest made.2.1
    conds := made.2.2.1
    events := found ++ made.2.2.2 }

/-- Whether a run that advances saturates or not, it comes to 3 from 2 alone. -/
theorem bumpRun_eq_three_iff (n : Nat) : bumpRun n = 3 ↔ n = 2 := by
  unfold bumpRun Config.runLimit
  split <;> omega

theorem regularStart_of_lock {c : FeedConfig} {k : Cadence} (s : Tick)
    (lock : k.state = .seeking ∧ bumpRun k.regularRun = c.lockCount) :
    regularStart c k s =
      ({ k with
          state := .locked, period := regularPeriod c k s, regularRun := bumpRun k.regularRun
          irregularRun := 0 },
        regularStamp k s, lockGained, [.locked]) := by
  simp [regularStart, lock]

theorem regularStart_of_no_lock {c : FeedConfig} {k : Cadence} (s : Tick)
    (stay : ¬ (k.state = .seeking ∧ bumpRun k.regularRun = c.lockCount)) :
    regularStart c k s =
      ({ k with period := regularPeriod c k s, regularRun := bumpRun k.regularRun, irregularRun := 0 },
        regularStamp k s, 0, []) := by
  simp [regularStart, stay]

theorem irregularStart_of_unlock {k : Cadence} (s : Tick) (unlock : k.state = .locked ∧ k.irregularRun = 2) :
    irregularStart k s =
      ({ k with
          state := .seeking, regularRun := 0, irregularRun := bumpRun k.irregularRun
          irregularCount := bump k.irregularCount, irregularLeft := k.irregularLeft - 1 },
        toStamp s, lockLost ||| (if k.irregularLeft = 1 then irregularLimit else 0), [.seeking false]) := by
  simp [irregularStart, monitor, bumpRun_eq_three_iff, unlock]

theorem irregularStart_of_no_unlock {k : Cadence} (s : Tick)
    (stay : ¬ (k.state = .locked ∧ k.irregularRun = 2)) :
    irregularStart k s =
      ({ k with
          regularRun := 0, irregularRun := bumpRun k.irregularRun
          irregularCount := bump k.irregularCount, irregularLeft := k.irregularLeft - 1 },
        toStamp s, if k.irregularLeft = 1 then irregularLimit else 0, []) := by
  simp [irregularStart, monitor, bumpRun_eq_three_iff, stay]

@[simp] theorem regularStart_lossTimer (c : FeedConfig) (k : Cadence) (s : Tick) :
    (regularStart c k s).1.lossTimer = k.lossTimer := by
  by_cases lock : k.state = .seeking ∧ bumpRun k.regularRun = c.lockCount
  · rw [regularStart_of_lock s lock]
  · rw [regularStart_of_no_lock s lock]

@[simp] theorem irregularStart_lossTimer (k : Cadence) (s : Tick) :
    (irregularStart k s).1.lossTimer = k.lossTimer := by
  by_cases unlock : k.state = .locked ∧ k.irregularRun = 2
  · rw [irregularStart_of_unlock s unlock]
  · rw [irregularStart_of_no_unlock s unlock]

/-! ### The three kinds of sample start -/

theorem sampleStart_of_seed (c : FeedConfig) (s : Tick) (newest : Option Stamp) {k : Cadence}
    (seed : k.state = .lost ∨ k.seedPending = true) :
    sampleStart c s newest k =
      finishStart newest s (leaveLost k).2 ((seedStart c ((leaveLost k).1.loaded c) s).1, toStamp s, 0, []) := by
  have pending := (leaveLost_seedPending k).2 seed
  simp [sampleStart, finishStart, monotonic_eq_afterNewest, Cadence.loaded, seedStart, pending]

section classified
variable {c : FeedConfig} {s : Tick} {k : Cadence} (live : k.state ≠ .lost)
  (measured : k.seedPending = false)
include live measured

theorem sampleStart_of_regular (newest : Option Stamp) (regular : isRegular c k.lastRaw s = true) :
    sampleStart c s newest k = finishStart newest s [] (regularStart c (k.loaded c) s) := by
  simp [sampleStart, finishStart, monotonic_eq_afterNewest, Cadence.loaded, live, measured, regular]

theorem sampleStart_of_irregular (newest : Option Stamp) (irregular : isRegular c k.lastRaw s = false) :
    sampleStart c s newest k = finishStart newest s [] (irregularStart (k.loaded c) s) := by
  simp [sampleStart, finishStart, monotonic_eq_afterNewest, Cadence.loaded, live, measured, irregular]

end classified

/-- Every sample start ends by the last steps of R29, on a tracker whose loss timer is loaded (R39). -/
theorem sampleStart_finishes (c : FeedConfig) (s : Tick) (newest : Option Stamp) (k : Cadence) :
    ∃ found made, sampleStart c s newest k = finishStart newest s found made ∧
      made.1.lossTimer = some c.lossLoad := by
  by_cases seed : k.state = .lost ∨ k.seedPending = true
  · exact ⟨_, _, sampleStart_of_seed c s newest seed, rfl⟩
  · obtain ⟨live, measured⟩ := not_or.1 seed
    rw [Bool.not_eq_true] at measured
    cases band : isRegular c k.lastRaw s with
    | true => exact ⟨_, _, sampleStart_of_regular live measured newest band, regularStart_lossTimer ..⟩
    | false => exact ⟨_, _, sampleStart_of_irregular live measured newest band, irregularStart_lossTimer ..⟩

/-! ### What the manual says of each -/

/-- The timer, the tick and the stamp of every sample start (R29, R35, R39). -/
theorem sampleStart_keeps_tick_and_stamp (c : FeedConfig) (now : Tick) (newest : Option Stamp) (k : Cadence) :
    (sampleStart c now newest k).cadence.lossTimer = some (c.lossPeriods * c.period) ∧
      (sampleStart c now newest k).cadence.lastRaw = now ∧
      (sampleStart c now newest k).cadence.lastSmoothed = (sampleStart c now newest k).stamp ∧
      ∀ n, newest = some n → 0 < Stamp.since (sampleStart c now newest k).stamp n := by
  obtain ⟨found, made, finishes, loaded⟩ := sampleStart_finishes c now newest k
  rw [finishes]
  refine ⟨loaded, rfl, rfl, ?_⟩
  rintro n rfl
  exact afterNewest_isAfter n _

/-- Settles O47: every sample start ends alike, and a seed, a regular and an irregular interval each have their
equation; a classified interval is split once more by whether it moves the feed state. -/
theorem sampleStartFollowsTheCadence : Obligations.SampleStartFollowsTheCadence := by
  rintro c now newest k r rfl
  obtain ⟨timer, raw, smoothed, after⟩ := sampleStart_keeps_tick_and_stamp c now newest k
  refine ⟨timer, raw, smoothed, after, fun seed => ?_, fun live measured regular e he => ?_,
    fun live measured irregular => ?_⟩
  · rw [sampleStart_of_seed c now newest seed]
    refine ⟨rfl, rfl, rfl, rfl, rfl, rfl, fun lost => ?_, fun live => ?_⟩
    · simp [finishStart, seedStart, Cadence.loaded, lost]
    · simp [finishStart, seedStart, Cadence.loaded, live]
  · subst he
    rw [sampleStart_of_regular live measured newest (decide_eq_true regular)]
    by_cases lock : k.state = .seeking ∧ bumpRun k.regularRun = c.lockCount
    · rw [regularStart_of_lock (k := k.loaded c) now lock]
      exact ⟨rfl, clampPeriod_eq c _, rfl, rfl, rfl, fun _ _ => ⟨rfl, rfl, rfl⟩, fun stay => absurd lock stay⟩
    · rw [regularStart_of_no_lock (k := k.loaded c) now lock]
      exact ⟨rfl, clampPeriod_eq c _, rfl, rfl, rfl, fun seeking reached => absurd ⟨seeking, reached⟩ lock,
        fun _ => ⟨rfl, rfl, rfl⟩⟩
  · rw [sampleStart_of_irregular live measured newest (decide_eq_false (Nat.not_le.2 irregular))]
    by_cases unlock : k.state = .locked ∧ k.irregularRun = 2
    · rw [irregularStart_of_unlock (k := k.loaded c) now unlock]
      exact ⟨rfl, rfl, rfl, rfl, rfl, rfl, fun _ _ => ⟨rfl, rfl, rfl⟩, fun stay => absurd unlock stay⟩
    · rw [irregularStart_of_no_unlock (k := k.loaded c) now unlock]
      exact ⟨rfl, rfl, rfl, rfl, rfl, rfl, fun locked third => absurd ⟨locked, third⟩ unlock,
        fun _ => ⟨rfl, rfl, rfl⟩⟩

end Sys2Proof.Machine
end

section
/-! What the operations of the Phase Unit make of an output and of the pins (04, 07): each operation of the state
that a pulse or a stop runs, told as a function of the one output and of the histories. -/

namespace Sys2Proof.Machine

/-! ### Pins (R75, R76) -/

/-- A feed with the pin counts of its history changed by sample number. -/
def Feed.repin (g : SampleNo → Nat → Nat) (x : Feed) : Feed :=
  { x with history := x.history.map fun r => { r with pins := g r.number r.pins } }

theorem Feed.repin_id (x : Feed) : x.repin (fun _ k => k) = x := by simp [Feed.repin]

theorem Feed.repin_repin (g h : SampleNo → Nat → Nat) (x : Feed) :
    (x.repin g).repin h = x.repin fun n k => h n (g n k) := by simp [Feed.repin]

/-- Two states whose feeds differ in pins alone, changed as `g` says. -/
def State.Repins (g : FeedId → SampleNo → Nat → Nat) (s t : State) : Prop :=
  ∀ f : FeedId, t.feeds[f] = s.feeds[f].repin (g f)

theorem State.Repins.of_feeds {s t : State} (h : t.feeds = s.feeds) : s.Repins (fun _ _ k => k) t :=
  fun f => by rw [h, Feed.repin_id]

theorem State.Repins.trans {g h : FeedId → SampleNo → Nat → Nat} {s t u : State} (st : s.Repins g t)
    (tu : t.Repins h u) : s.Repins (fun f n k => h f n (g f n k)) u := fun f => by
  rw [tu f, st f, Feed.repin_repin]

theorem State.Repins.congr {g h : FeedId → SampleNo → Nat → Nat} {s t : State} (st : s.Repins g t)
    (e : ∀ f n k, g f n k = h f n k) : s.Repins h t := by
  have : g = h := by funext f n k; exact e f n k
  exact this ▸ st

theorem State.Repins.feeds_eq {s t u : State} {g : FeedId → SampleNo → Nat → Nat} (st : s.Repins g t)
    (h : u.feeds = t.feeds) : s.Repins g u := fun f => by rw [h, st f]

/-- How often a list of records names record `n` of feed `f`. -/
def namings (f : FeedId) (n : SampleNo) (rs : List RecordRef) : Nat :=
  rs.countP fun r => r.feed = f ∧ r.number = n

theorem State.changePin_repins (g : Nat → Nat) (r : RecordRef) (s : State) :
    s.Repins (fun f n => g^[namings f n [r]]) (s.changePin g r) := by
  intro f
  have named : changePins g r.number = fun h => h.map fun x : SampleRecord =>
      { x with pins := g^[if r.number = x.number then 1 else 0] x.pins } := by
    funext h
    refine List.map_congr_left fun x _ => ?_
    by_cases e : x.number = r.number <;> simp [e, eq_comm]
  by_cases same : r.feed = f
  · subst same
    simp [State.changePin, Feed.repin, named, namings, List.countP_cons]
  · have kept : (s.changePin g r).feeds[f] = s.feeds[f] := by
      simp [State.changePin, vector_set_other _ _ _ _ (Ne.symm same)]
    rw [kept]
    simp [Feed.repin, namings, same]

theorem State.changePins_repins (g : Nat → Nat) (rs : List RecordRef) (s : State) :
    s.Repins (fun f n => g^[namings f n rs]) (rs.foldl (fun s r => s.changePin g r) s) := by
  induction rs generalizing s with
  | nil => exact State.Repins.of_feeds rfl
  | cons r rs ih =>
    refine ((s.changePin_repins g r).trans (ih _)).congr fun f n k => ?_
    rw [← Function.iterate_add_apply]
    simp [namings, List.countP_cons]

theorem State.pin_repins (x : Context) (s : State) :
    s.Repins (fun f n k => k + x.pinsOn f n) (s.pin x) :=
  (State.changePins_repins (· + 1) x.records s).congr fun _ _ k => Nat.succ_iterate k _

theorem State.unpin_repins (x : Context) (s : State) :
    s.Repins (fun f n k => k - x.pinsOn f n) (s.unpin x) :=
  (State.changePins_repins (· - 1) x.records s).congr fun _ _ k => Nat.pred_iterate k _

end Sys2Proof.Machine
end

section
/-! Marks and the device word under the writers of feeds and outputs (R189 to R195). -/

namespace Sys2Proof.Machine

/-! ### Which marks an update makes -/

theorem State.putDeviceWord_onlyMarks (ps : List Part) (w : Conds) (s : State) :
    s.onlyMarks ps (s.putDeviceWord w) := by
  simp only [State.putDeviceWord]
  split
  · exact State.onlyMarks_of_class3 rfl
  · exact State.mark_onlyMarks (s := { s with deviceWord := _, notice := _ }) .device (.inl rfl)

theorem State.refresh_onlyMarks (ps : List Part) (s : State) : s.onlyMarks ps s.refresh :=
  s.putDeviceWord_onlyMarks ps _

theorem State.putFeed_onlyMarks {ps : List Part} {f : FeedId} (x : Feed) (s : State)
    (shown : x.view = s.feeds[f].view ∨ .feed f ∈ ps) : s.onlyMarks ps (s.putFeed f x) := by
  refine State.onlyMarks_trans (t := if x.view = s.feeds[f].view then { s with feeds := s.feeds.set f x }
    else State.mark (.feed f) { s with feeds := s.feeds.set f x }) ?_ (State.refresh_onlyMarks ps _)
  split
  · exact State.onlyMarks_of_class3 rfl
  · next changed =>
    exact State.mark_onlyMarks (s := { s with feeds := _ }) _ (.inr (shown.resolve_left changed))

theorem State.putOutput_onlyMarks {ps : List Part} {o : OutId} (x : Output) (s : State)
    (named : .output o ∈ ps) : s.onlyMarks ps (s.putOutput o x) := by
  refine State.onlyMarks_trans (t := if x.view = s.outputs[o].view then { s with outputs := s.outputs.set o x }
    else State.mark (.output o) { s with outputs := s.outputs.set o x }) ?_ (State.refresh_onlyMarks ps _)
  split
  · exact State.onlyMarks_of_class3 rfl
  · exact State.mark_onlyMarks (s := { s with outputs := _ }) _ (.inr named)

theorem State.modifyOutput_onlyMarks {ps : List Part} {o : OutId} (g : Output → Output) (s : State)
    (named : .output o ∈ ps) : s.onlyMarks ps (s.modifyOutput o g) :=
  s.putOutput_onlyMarks _ named

theorem State.onlyMarks_foldl {α : Type} {ps : List Part} {g : State → α → State}
    (h : ∀ (s : State) (a : α), s.onlyMarks ps (g s a)) :
    ∀ (l : List α) (s : State), s.onlyMarks ps (l.foldl g s)
  | [], _ => State.onlyMarks_of_class3 rfl
  | a :: l, s => State.onlyMarks_trans (h s a) (State.onlyMarks_foldl h l (g s a))

/-- A pin is shown by no record, so that it marks none but the device record (R75, R197). -/
theorem State.changePin_onlyMarks (ps : List Part) (g : Nat → Nat) (r : RecordRef) (s : State) :
    s.onlyMarks ps (s.changePin g r) := by
  refine State.putFeed_onlyMarks _ s (.inl ?_)
  simp only [Feed.view, changePins, List.map_map]
  congr 1
  refine List.map_congr_left fun x _ => ?_
  dsimp only [Function.comp]
  split <;> rfl

theorem State.pin_onlyMarks (ps : List Part) (x : Context) (s : State) : s.onlyMarks ps (s.pin x) :=
  State.onlyMarks_foldl (fun s r => s.changePin_onlyMarks ps _ r) _ _

theorem State.unpin_onlyMarks (ps : List Part) (x : Context) (s : State) : s.onlyMarks ps (s.unpin x) :=
  State.onlyMarks_foldl (fun s r => s.changePin_onlyMarks ps _ r) _ _

theorem State.putRef_onlyMarks (ps : List Part) (r : Ref) (x : RefInput) (s : State) :
    s.onlyMarks ps (s.putRef r x) := by
  simp only [State.putRef]
  cases r <;>
  · dsimp only
    split
    · exact State.onlyMarks_of_class3 rfl
    · exact State.mark_onlyMarks _ _ (.inl rfl)

/-- A request that class 3 holds stays when only marks join it. -/
theorem State.mem_of_onlyMarks {ps : List Part} {h : Housekeeping} {s t : State} (k : s.onlyMarks ps t)
    (m : h ∈ s.class3) : h ∈ t.class3 := by
  obtain ⟨rs, e, -⟩ := k
  simp [e, m]

/-! ### Updates that leave the conditions as they are -/

/-- The summary positions follow the words and the masks of the feeds and the outputs alone (R191). -/
theorem State.summaries_congr {s t : State}
    (feeds : ∀ f : FeedId, t.feeds[f].word = s.feeds[f].word ∧ t.feeds[f].mask = s.feeds[f].mask)
    (outputs : ∀ o : OutId, t.outputs[o].word = s.outputs[o].word ∧ t.outputs[o].mask = s.outputs[o].mask) :
    t.summaries = s.summaries := by
  have feed := fun f : FeedId => (feeds f).1
  have feedMask := fun f : FeedId => (feeds f).2
  have output := fun o : OutId => (outputs o).1
  have outputMask := fun o : OutId => (outputs o).2
  simp only [Fin.forall_iff, Fin.getElem_fin] at feed feedMask output outputMask
  simp [State.summaries, feed, feedMask, output, outputMask]

theorem State.noticeHolds_congr {s t : State} (holds : s.noticeHolds) (summaries : t.summaries = s.summaries)
    (word : t.deviceWord = s.deviceWord) (notice : t.notice = s.notice) (mask : t.deviceMask = s.deviceMask) :
    t.noticeHolds := by
  unfold State.noticeHolds
  rw [summaries, word, notice, mask]
  exact holds

theorem State.mark_noticeHolds {s : State} (holds : s.noticeHolds) (r : RecordSel) : (s.mark r).noticeHolds :=
  State.noticeHolds_congr holds (by simp [State.summaries]) (by simp) (by simp) (by simp)

/-- Where the notice line holds, an output written with its word and mask kept changes that output and the marks,
and nothing of the device word (R189, R191). -/
theorem State.putOutput_of_quiet {o : OutId} {x : Output} {s : State} (holds : s.noticeHolds)
    (word : x.word = s.outputs[o].word) (mask : x.mask = s.outputs[o].mask) :
    s.changesOnly [.output o, .class3] (s.putOutput o x) := by
  have written : State.noticeHolds { s with outputs := s.outputs.set o x } := by
    refine State.noticeHolds_congr holds (State.summaries_congr (fun _ => ⟨rfl, rfl⟩) fun q => ?_) rfl rfl rfl
    by_cases h : q = o
    · subst h; simp [word, mask]
    · simp [vector_set_other _ _ _ _ h]
  have still : s.putOutput o x = if x.view = s.outputs[o].view then { s with outputs := s.outputs.set o x }
      else State.mark (.output o) { s with outputs := s.outputs.set o x } := by
    simp only [State.putOutput]
    split
    · exact State.refresh_of_noticeHolds written
    · exact State.refresh_of_noticeHolds (State.mark_noticeHolds written _)
  rw [still]
  intro p hp
  cases p <;> split <;> simp_all [State.same, State.ref, vector_set_other]

theorem State.modifyOutput_of_quiet {o : OutId} {g : Output → Output} {s : State} (holds : s.noticeHolds)
    (word : (g s.outputs[o]).word = s.outputs[o].word) (mask : (g s.outputs[o]).mask = s.outputs[o].mask) :
    s.changesOnly [.output o, .class3] (s.modifyOutput o g) :=
  State.putOutput_of_quiet holds word mask

theorem State.putFeed_of_quiet {f : FeedId} {x : Feed} {s : State} (holds : s.noticeHolds)
    (word : x.word = s.feeds[f].word) (mask : x.mask = s.feeds[f].mask) :
    s.changesOnly [.feed f, .class3] (s.putFeed f x) := by
  have written : State.noticeHolds { s with feeds := s.feeds.set f x } := by
    refine State.noticeHolds_congr holds (State.summaries_congr (fun q => ?_) fun _ => ⟨rfl, rfl⟩) rfl rfl rfl
    by_cases h : q = f
    · subst h; simp [word, mask]
    · simp [vector_set_other _ _ _ _ h]
  have still : s.putFeed f x = if x.view = s.feeds[f].view then { s with feeds := s.feeds.set f x }
      else State.mark (.feed f) { s with feeds := s.feeds.set f x } := by
    simp only [State.putFeed]
    split
    · exact State.refresh_of_noticeHolds written
    · exact State.refresh_of_noticeHolds (State.mark_noticeHolds written _)
  rw [still]
  intro p hp
  cases p <;> split <;> simp_all [State.same, State.ref, vector_set_other]

/-- From one state to another whose notice line holds, with only the pieces `ps` and class 3 changed, and class 3 by
marks of the records of `ms` and of the device alone. -/
def State.quietly (ps ms : List Part) (s t : State) : Prop :=
  s.changesOnly (.class3 :: ps) t ∧ s.onlyMarks ms t ∧ t.noticeHolds

theorem State.quietly_trans {ps ms : List Part} {s t u : State} (h : s.quietly ps ms t) (k : t.quietly ps ms u) :
    s.quietly ps ms u :=
  ⟨State.changesOnly_trans h.1 k.1, State.onlyMarks_trans h.2.1 k.2.1, k.2.2⟩

theorem State.quietly_refl (ps ms : List Part) {s : State} (holds : s.noticeHolds) : s.quietly ps ms s :=
  ⟨s.changesOnly_refl _, State.onlyMarks_of_class3 rfl, holds⟩

theorem State.onlyMarks_mono {ps qs : List Part} {s t : State} (h : s.onlyMarks ps t) (sub : ps ⊆ qs) :
    s.onlyMarks qs t := by
  obtain ⟨rs, e, named⟩ := h
  exact ⟨rs, e, fun r m => (named r m).imp_right fun k => sub k⟩

theorem State.quietly_mono {ps qs ms ns : List Part} {s t : State} (h : s.quietly ps ms t) (sub : ps ⊆ qs)
    (marks : ms ⊆ ns) : s.quietly qs ns t :=
  ⟨State.changesOnly_mono h.1 (List.cons_subset_cons _ sub), State.onlyMarks_mono h.2.1 marks, h.2.2⟩

/-- A step that writes no condition, no mask and no mark. -/
theorem State.quietly_of_eq {ps : List Part} (ms : List Part) {s t : State} (holds : s.noticeHolds)
    (only : s.changesOnly ps t) (class3 : t.class3 = s.class3) (summaries : t.summaries = s.summaries)
    (word : t.deviceWord = s.deviceWord) (notice : t.notice = s.notice) (mask : t.deviceMask = s.deviceMask) :
    s.quietly ps ms t :=
  ⟨State.changesOnly_mono only (List.subset_cons_self ..), State.onlyMarks_of_class3 class3,
    State.noticeHolds_congr holds summaries word notice mask⟩

theorem State.modifyOutput_quietly {o : OutId} {g : Output → Output} {s : State} (holds : s.noticeHolds)
    (word : (g s.outputs[o]).word = s.outputs[o].word) (mask : (g s.outputs[o]).mask = s.outputs[o].mask) :
    s.quietly [.output o] [.output o] (s.modifyOutput o g) :=
  ⟨State.changesOnly_mono (State.modifyOutput_of_quiet holds word mask) (by simp),
    s.modifyOutput_onlyMarks g (by simp), State.putOutput_noticeHolds ..⟩

theorem State.mark_quietly (ps : List Part) {ms : List Part} {r : RecordSel} {s : State} (holds : s.noticeHolds)
    (named : r = .device ∨ r.part ∈ ms) : s.quietly ps ms (s.mark r) :=
  ⟨State.changesOnly_mono (s.mark_changesOnly r) (by simp), s.mark_onlyMarks r named,
    State.mark_noticeHolds holds r⟩

theorem State.foldl_quietly {α : Type} {ps ms : List Part} {g : State → α → State}
    (h : ∀ (s : State) (a : α), s.noticeHolds → s.quietly ps ms (g s a)) :
    ∀ (l : List α) (s : State), s.noticeHolds → s.quietly ps ms (l.foldl g s)
  | [], _, holds => State.quietly_refl ps ms holds
  | a :: l, s, holds => State.quietly_trans (h s a holds) (State.foldl_quietly h l (g s a) (h s a holds).2.2)

/-- A changed pin is no condition of its feed, and no record shows it (R75, R197). -/
theorem State.changePin_quietly (g : Nat → Nat) (r : RecordRef) {s : State} (holds : s.noticeHolds) :
    s.quietly feedParts [] (s.changePin g r) := by
  refine ⟨State.changesOnly_mono (State.putFeed_of_quiet holds rfl rfl) ?_, s.changePin_onlyMarks _ g r,
    State.putFeed_noticeHolds ..⟩
  generalize r.feed = f
  intro p hp
  fin_cases f <;> simp_all [feedParts] <;> tauto

theorem State.unpin_quietly (x : Context) {s : State} (holds : s.noticeHolds) :
    s.quietly feedParts [] (s.unpin x) :=
  State.foldl_quietly (fun _ r => State.changePin_quietly _ r) _ _ holds

end Sys2Proof.Machine
end

section
/-! The latch as a function of one output (R63, R64): the frame-boundary work, the selection and the installing of the
new context, each tied to the operation of the state that runs it. -/

namespace Sys2Proof.Machine

/-! ### One element of a vector -/

theorem vector_set_same {α : Type} {n : Nat} (v : Vector α n) (i : Fin n) : v.set i.val v[i] i.isLt = v :=
  Vector.set_getElem_self i.isLt

@[simp] theorem vector_set_self {α : Type} {n : Nat} (v : Vector α n) (i : Fin n) (x : α) :
    (v.set i.val x i.isLt)[i] = x := Vector.getElem_set_self i.isLt

/-! ### The held contexts -/

theorem Contexts.mem_all {c : Contexts} {y : Context} :
    some y ∈ c.all ↔ (∃ p, c.held p = some y) ∨ c.frozen = some y ∨ c.retired = some y := by
  simp only [Contexts.all, List.mem_cons, List.not_mem_nil, or_false, eq_comm (a := some y)]
  constructor
  · rintro (h | h | h | h | h)
    · exact .inl ⟨.whole, h⟩
    · exact .inl ⟨.top, h⟩
    · exact .inl ⟨.bottom, h⟩
    · exact .inr (.inl h)
    · exact .inr (.inr h)
  · rintro (⟨p, h⟩ | h | h)
    · cases p
      · exact .inl h
      · exact .inr (.inl h)
      · exact .inr (.inr (.inl h))
    · exact .inr (.inr (.inr (.inl h)))
    · exact .inr (.inr (.inr (.inr h)))

@[simp] theorem Parity.other_other (p : Parity) : p.other.other = p := by cases p <;> rfl

theorem Parity.other_eq_self {p : Parity} : p.other = p ↔ p = .whole := by cases p <;> simp [Parity.other]

@[simp] theorem Contexts.setHeld_decision (c : Contexts) (p : Parity) (x : Option Context) :
    (c.setHeld p x).decision = c.decision := by cases p <;> rfl
@[simp] theorem Contexts.setHeld_nextId (c : Contexts) (p : Parity) (x : Option Context) :
    (c.setHeld p x).nextId = c.nextId := by cases p <;> rfl

/-- Of two contexts the later CONVERT one is one of the two, and a CONVERT one if the first is. -/
theorem laterConvert_some {best x : Option Context} {y : Context} (h : laterConvert best x = some y) :
    best = some y ∨ (x = some y ∧ y.kind = .convert) := by
  unfold laterConvert at h
  split at h
  · exact .inl h
  · next c =>
    split at h
    · exact .inl h
    · next convert =>
      rw [ne_eq, not_not] at convert
      split at h
      · exact .inr ⟨h, by cases h; exact convert⟩
      · split at h
        · exact .inr ⟨h, by cases h; exact convert⟩
        · exact .inl h

theorem laterConvert_none {best x : Option Context} (h : laterConvert best x = none) :
    best = none ∧ ∀ y, x = some y → y.kind ≠ .convert := by
  unfold laterConvert at h
  split at h
  · exact ⟨h, by simp⟩
  · split at h
    · next other => exact ⟨h, by rintro y ⟨⟩; exact other⟩
    · split at h
      · simp at h
      · split at h <;> simp at h

theorem Contexts.latestConvert_some {c : Contexts} {y : Context} (h : c.latestConvert = some y) :
    (∃ p, c.held p = some y) ∧ y.kind = .convert := by
  simp only [Contexts.latestConvert, List.foldl_cons, List.foldl_nil] at h
  rcases laterConvert_some h with h | ⟨h, convert⟩
  · rcases laterConvert_some h with h | ⟨h, convert⟩
    · rcases laterConvert_some h with h | ⟨h, convert⟩
      · simp at h
      · exact ⟨⟨.whole, h⟩, convert⟩
    · exact ⟨⟨.top, h⟩, convert⟩
  · exact ⟨⟨.bottom, h⟩, convert⟩

theorem Contexts.latestConvert_none {c : Contexts} (h : c.latestConvert = none) :
    ∀ p y, c.held p = some y → y.kind ≠ .convert := by
  simp only [Contexts.latestConvert, List.foldl_cons, List.foldl_nil] at h
  obtain ⟨h, bottom⟩ := laterConvert_none h
  obtain ⟨h, top⟩ := laterConvert_none h
  obtain ⟨-, whole⟩ := laterConvert_none h
  rintro (_ | _ | _) y held
  · exact whole y held
  · exact top y held
  · exact bottom y held

/-! ### The frame boundary (R134 to R138) -/

/-- The frozen context that an entry into FREEZE makes (R135). -/
def Contexts.frozenCopy (c : Contexts) : Option Context :=
  c.latestConvert.map fun x => { x with id := c.nextId, clips := 0, uses := 0 }

/-- The frozen context made when the mode goes from `before` to `now`. -/
def Contexts.gained (before now : Mode) (c : Contexts) : Option Context :=
  if before ≠ .freeze ∧ now = .freeze then c.frozenCopy else none

/-- The frozen context released when the mode goes from `before` to `now`. -/
def Contexts.lost (before now : Mode) (c : Contexts) : Option Context :=
  if before = .freeze ∧ now ≠ .freeze then c.frozen else none

/-- The contexts after part 2 of R134, when the mode goes from `before` to `now`. -/
def Contexts.refrozen (before now : Mode) (c : Contexts) : Contexts :=
  match c.gained before now with
  | some y => { c with frozen := some y, nextId := c.nextId + 1 }
  | none => if before = .freeze ∧ now ≠ .freeze then { c with frozen := none } else c

theorem Contexts.refrozen_of_gained {before now : Mode} {c : Contexts} {y : Context}
    (h : c.gained before now = some y) :
    c.refrozen before now = { c with frozen := some y, nextId := c.nextId + 1 } := by
  simp only [Contexts.refrozen, h]

theorem Contexts.refrozen_of_not_gained {before now : Mode} {c : Contexts} (h : c.gained before now = none) :
    c.refrozen before now = if before = .freeze ∧ now ≠ .freeze then { c with frozen := none } else c := by
  simp only [Contexts.refrozen, h]

/-- Part 2 of R134 changes the frozen context and the next context id alone. -/
theorem Contexts.refrozen_eq (before now : Mode) (c : Contexts) :
    c.refrozen before now =
      { c with frozen := (c.refrozen before now).frozen, nextId := (c.refrozen before now).nextId } := by
  cases h : c.gained before now with
  | some y => rw [Contexts.refrozen_of_gained h]
  | none => rw [Contexts.refrozen_of_not_gained h]; split <;> rfl

theorem Contexts.refrozen_frozen (before now : Mode) (c : Contexts) :
    (c.refrozen before now).frozen =
      (c.gained before now).or (if before = .freeze ∧ now ≠ .freeze then none else c.frozen) := by
  cases h : c.gained before now with
  | some y => simp [Contexts.refrozen_of_gained h]
  | none => rw [Contexts.refrozen_of_not_gained h]; split <;> simp

theorem Contexts.refrozen_nextId (before now : Mode) (c : Contexts) :
    (c.refrozen before now).nextId = c.nextId + (if (c.gained before now).isSome then 1 else 0) := by
  cases h : c.gained before now with
  | some y => simp [Contexts.refrozen_of_gained h]
  | none => rw [Contexts.refrozen_of_not_gained h]; split <;> simp

@[simp] theorem Contexts.refrozen_held (before now : Mode) (c : Contexts) (p : Parity) :
    (c.refrozen before now).held p = c.held p := by
  rw [Contexts.refrozen_eq]
  cases p <;> rfl

@[simp] theorem Contexts.gained_self (m : Mode) (c : Contexts) : c.gained m m = none :=
  if_neg fun h => h.1 h.2

@[simp] theorem Contexts.lost_self (m : Mode) (c : Contexts) : c.lost m m = none :=
  if_neg fun h => h.2 h.1

@[simp] theorem Contexts.refrozen_self (m : Mode) (c : Contexts) : c.refrozen m m = c :=
  (Contexts.refrozen_of_not_gained (c.gained_self m)).trans (if_neg fun h => h.2 h.1)

/-- Part 2 of R134 on the output, whose mode was `before`. -/
def Output.refrozen (before : Mode) (x : Output) : Output :=
  { x with ctx := x.ctx.refrozen before x.modes.mode }

theorem State.refreeze_eq (o : OutId) (before : Mode) (s : State) :
    s.refreeze o before =
      if before ≠ .freeze ∧ s.outputs[o].modes.mode = .freeze then s.makeFrozen o
      else if before = .freeze ∧ s.outputs[o].modes.mode ≠ .freeze then s.dropFrozen o
      else s := by
  simp [State.refreeze, -Fin.getElem_fin]

theorem State.refreeze_outputs (o : OutId) (before : Mode) (s : State) :
    (s.refreeze o before).outputs = s.outputs.set o (s.outputs[o].refrozen before) := by
  have put (c : Contexts) (h : s.outputs[o].ctx.refrozen before s.outputs[o].modes.mode = c) :
      s.outputs.set o { s.outputs[o] with ctx := c } = s.outputs.set o (s.outputs[o].refrozen before) := by
    rw [← h]; rfl
  have kept (h : s.outputs[o].ctx.refrozen before s.outputs[o].modes.mode = s.outputs[o].ctx) :
      s.outputs = s.outputs.set o (s.outputs[o].refrozen before) :=
    (vector_set_same s.outputs o).symm.trans (put _ h)
  simp only [State.refreeze_eq]
  split
  · next enter =>
    have gained : s.outputs[o].ctx.gained before s.outputs[o].modes.mode = s.outputs[o].ctx.frozenCopy :=
      if_pos enter
    unfold State.makeFrozen
    simp only
    split
    · next none_ =>
      rw [Contexts.frozenCopy, none_] at gained
      exact kept ((Contexts.refrozen_of_not_gained gained).trans (if_neg (by tauto)))
    · next x some_ =>
      rw [Contexts.frozenCopy, some_] at gained
      rw [State.modifyContexts_outputs, State.pin_outputs]
      exact put _ (Contexts.refrozen_of_gained gained)
  · next stay =>
    have gained : s.outputs[o].ctx.gained before s.outputs[o].modes.mode = none := if_neg stay
    split
    · next leave =>
      have dropped := (Contexts.refrozen_of_not_gained gained).trans (if_pos leave)
      unfold State.dropFrozen
      split
      · next none_ => exact kept (dropped.trans (by rw [← none_]))
      · rw [State.modifyContexts_outputs, State.unpin_outputs]
        exact put _ dropped
    · next keep => exact kept ((Contexts.refrozen_of_not_gained gained).trans (if_neg keep))

/-- The pins of a context that may not be there. -/
@[simp] theorem pinsOf_some (f : FeedId) (n : SampleNo) (x : Context) : pinsOf f n [some x] = x.pinsOn f n := by
  simp [pinsOf]
@[simp] theorem pinsOf_none (f : FeedId) (n : SampleNo) : pinsOf f n [none] = 0 := by simp [pinsOf]

theorem State.refreeze_repins (o : OutId) (before : Mode) (s : State) :
    s.Repins (fun f n k => k + pinsOf f n [s.outputs[o].ctx.gained before s.outputs[o].modes.mode]
      - pinsOf f n [s.outputs[o].ctx.lost before s.outputs[o].modes.mode]) (s.refreeze o before) := by
  simp only [State.refreeze_eq, Contexts.gained, Contexts.lost]
  split
  · next enter =>
    rw [if_neg (by tauto)]
    unfold State.makeFrozen Contexts.frozenCopy
    simp only
    split
    · next none_ =>
      rw [none_]
      exact (State.Repins.of_feeds rfl).congr fun f n k => by simp
    · next x some_ =>
      rw [some_]
      exact ((State.pin_repins _ s).feeds_eq (State.modifyContexts_feeds ..)).congr fun f n k => by simp
  · split
    · unfold State.dropFrozen
      split
      · next none_ =>
        rw [none_]
        exact (State.Repins.of_feeds rfl).congr fun f n k => by simp
      · next x some_ =>
        rw [some_]
        exact ((State.unpin_repins x s).feeds_eq (State.modifyContexts_feeds ..)).congr fun f n k => by simp
    · exact (State.Repins.of_feeds rfl).congr fun f n k => by simp

theorem State.refreeze_onlyMarks {ps : List Part} {o : OutId} (named : .output o ∈ ps) (before : Mode) (s : State) :
    s.onlyMarks ps (s.refreeze o before) := by
  unfold State.refreeze State.makeFrozen State.dropFrozen
  simp only
  split
  · split
    · exact State.onlyMarks_of_class3 rfl
    · exact State.onlyMarks_trans (s.pin_onlyMarks ps _) (State.modifyOutput_onlyMarks _ _ named)
  · split
    · split
      · exact State.onlyMarks_of_class3 rfl
      · exact State.onlyMarks_trans (s.unpin_onlyMarks ps _) (State.modifyOutput_onlyMarks _ _ named)
    · exact State.onlyMarks_of_class3 rfl

/-- The frame-boundary work on the output, with the state of its feed (R134). -/
def Output.bounded (feed : FeedState) (x : Output) : Output :=
  (x.applyPending.refrozen x.modes.mode).hold feed

/-- Steps 1 to 3 of R63 on the output; a SECOND FIELD pulse skips them (R64). -/
def Output.frameWorked (feed : FeedState) (p : Pulse) (x : Output) : Output :=
  if p.frameStart then (x.bounded feed).decide else x

/-- The mode that a FRAME START pulse takes (R134). -/
def Modes.taken (m : Modes) : Mode := m.pending.getD m.mode

/-- The pending mode taken changes the modes and the word alone. -/
theorem Output.applyPending_eq (x : Output) :
    x.applyPending =
      { x with
        modes := { x.modes with mode := x.modes.taken, pending := none }
        word := x.word ||| if x.modes.taken ≠ x.modes.mode then modeChanged else 0 } := by
  unfold Output.applyPending Modes.taken
  split
  · next none_ =>
    simp only [none_, Option.getD_none, ne_eq, not_true_eq_false, if_false]
    rw [← none_]
    simp
  · next m some_ =>
    by_cases same : m = x.modes.mode <;> simp [some_, same]

theorem State.frameBoundary_outputs (o : OutId) (c : OutputConfig) (s : State) :
    (s.frameBoundary o c).outputs =
      s.outputs.set o (s.outputs[o].bounded s.feeds[c.feed].cadence.state) := by
  have feed := (State.refreeze_repins o s.outputs[o].modes.mode (s.modifyOutput o Output.applyPending)) c.feed
  have cadence : ((s.modifyOutput o Output.applyPending).refreeze o s.outputs[o].modes.mode).feeds[c.feed].cadence
      = s.feeds[c.feed].cadence := by rw [feed, State.modifyOutput_feeds]; rfl
  simp only [State.frameBoundary, State.modifyOutput_outputs, State.refreeze_outputs, vector_set_self,
    Vector.set_set, cadence, Output.bounded]

theorem State.frameWork_outputs (o : OutId) (c : OutputConfig) (p : Pulse) (s : State) :
    (s.frameWork o c p).outputs =
      s.outputs.set o (s.outputs[o].frameWorked s.feeds[c.feed].cadence.state p) := by
  unfold State.frameWork Output.frameWorked
  split
  · simp only [State.modifyOutput_outputs, State.frameBoundary_outputs, vector_set_self, Vector.set_set]
  · exact (vector_set_same _ o).symm

theorem State.frameWork_onlyMarks {ps : List Part} {o : OutId} (named : .output o ∈ ps) (c : OutputConfig)
    (p : Pulse) (s : State) : s.onlyMarks ps (s.frameWork o c p) := by
  have write (g : Output → Output) (s : State) : s.onlyMarks ps (s.modifyOutput o g) :=
    s.modifyOutput_onlyMarks g named
  unfold State.frameWork
  split
  · exact State.onlyMarks_trans (State.onlyMarks_trans (State.onlyMarks_trans (write _ s)
      (State.refreeze_onlyMarks named _ _)) (write _ _)) (write _ _)
  · exact State.onlyMarks_of_class3 rfl

/-! ### What the frame work makes of an output -/

@[simp] theorem Modes.respond_mode (t : Option Mode) (m : Modes) : (m.respond t).mode = m.mode := by
  unfold Modes.respond; split
  · rfl
  · split <;> rfl
@[simp] theorem Modes.respond_expired (t : Option Mode) (m : Modes) : (m.respond t).expired = m.expired := by
  unfold Modes.respond; split
  · rfl
  · split <;> rfl
@[simp] theorem Modes.respond_injection (t : Option Mode) (m : Modes) :
    (m.respond t).injection = m.injection := by
  unfold Modes.respond; split
  · rfl
  · split <;> rfl

/-- The hold count changes itself and its expiry mark alone, and an expiry is the mark's being set (R137). -/
theorem Modes.countHold_eq (m : Modes) :
    m.countHold.1 = { m with holdCount := m.countHold.1.holdCount, expired := m.countHold.1.expired } ∧
      (m.countHold.2 = true ↔ m.countHold.1.expired = true ∧ m.expired = false) := by
  unfold Modes.countHold
  split
  · simp
  · dsimp only
    generalize (if m.holdCount < m.holdLimit then m.holdCount + 1 else m.holdCount) = n
    by_cases expires : (m.holdLimit ≤ n && !m.expired) = true
    · rw [if_pos expires]
      simp_all
    · rw [if_neg expires]
      simp

/-- Part 3 of R134 changes the modes and the word alone, and keeps the mode and the injection mode. -/
theorem Output.hold_eq (feed : FeedState) (x : Output) :
    x.hold feed =
        { x with
          modes := (x.hold feed).modes
          word := x.word ||| if (x.hold feed).modes.expired = true ∧ x.modes.expired = false then holdExpired else 0 } ∧
      (x.hold feed).modes.mode = x.modes.mode ∧ (x.hold feed).modes.injection = x.modes.injection := by
  obtain ⟨counted, expiry⟩ := x.modes.countHold_eq
  unfold Output.hold
  split
  · simp [Modes.zeroHold]
  · split
    · simp
    · dsimp only
      split
      · next expired =>
        refine ⟨by simp [expiry.1 expired], ?_, ?_⟩ <;> simp only [Modes.respond_mode, Modes.respond_injection] <;>
          rw [counted]
      · next stays =>
        refine ⟨by simp [mt expiry.2 stays], ?_, ?_⟩ <;> dsimp only <;> rw [counted]

/-- The evaluation of the injection state changes that state alone, and ends a one-shot slate with its condition
(R144). -/
theorem Modes.inject_eq (m : Modes) :
    m.inject.1.mode = m.mode ∧ m.inject.1.expired = m.expired ∧
      m.inject.2.2 = if m.injection = .oneShot ∧ m.inject.1.injection = .none_ then slateDone else 0 := by
  unfold Modes.inject
  cases kind : m.injection with
  | none_ => simp
  | continuous => simp
  | periodic => dsimp only; split <;> simp
  | oneShot =>
    dsimp only
    split
    · simp [kind]
    · split <;> simp

/-- The conditions that steps 1 to 3 of R63 set between two mode states (R134, R137, R144). -/
def frameConds (m n : Modes) : Conds :=
  (if n.mode ≠ m.mode then modeChanged else 0) |||
  (if n.expired = true ∧ m.expired = false then holdExpired else 0) |||
  (if m.injection = .oneShot ∧ n.injection = .none_ then slateDone else 0)

theorem frameConds_self (m : Modes) : frameConds m m = 0 := by
  have none_ : ¬ (m.injection = .oneShot ∧ m.injection = .none_) := by rintro ⟨h, k⟩; simp [h] at k
  simp [frameConds, none_]

/-- The frame-boundary work on an output whose modes become `m` by it (R134). -/
theorem Output.bounded_eq (feed : FeedState) (x : Output) :
    x.bounded feed =
        { x with
          modes := (x.bounded feed).modes
          word := (x.word ||| if x.modes.taken ≠ x.modes.mode then modeChanged else 0) |||
            if (x.bounded feed).modes.expired = true ∧ x.modes.expired = false then holdExpired else 0
          ctx := x.ctx.refrozen x.modes.mode x.modes.taken } ∧
      (x.bounded feed).modes.mode = x.modes.taken ∧ (x.bounded feed).modes.injection = x.modes.injection := by
  obtain ⟨held, mode, injection⟩ := (x.applyPending.refrozen x.modes.mode).hold_eq feed
  have before : x.applyPending.refrozen x.modes.mode =
      { x with
        modes := { x.modes with mode := x.modes.taken, pending := none }
        word := x.word ||| if x.modes.taken ≠ x.modes.mode then modeChanged else 0
        ctx := x.ctx.refrozen x.modes.mode x.modes.taken } := by rw [Output.applyPending_eq]; rfl
  refine ⟨held.trans ?_, mode.trans (by rw [before]), injection.trans (by rw [before])⟩
  unfold Output.bounded
  generalize ((x.applyPending.refrozen x.modes.mode).hold feed).modes = m
  rw [before]

theorem Output.frameWorked_of_second (feed : FeedState) {p : Pulse} (second : p.frameStart = false) (x : Output) :
    x.frameWorked feed p = x := by simp [Output.frameWorked, second]

theorem Output.frameWorked_of_frameStart (feed : FeedState) {p : Pulse} (start : p.frameStart = true) (x : Output) :
    x.frameWorked feed p = (x.bounded feed).decide := if_pos start

theorem Output.frameWorked_mode (feed : FeedState) (p : Pulse) (x : Output) :
    (x.frameWorked feed p).modes.mode = if p.frameStart then x.modes.taken else x.modes.mode := by
  cases start : p.frameStart with
  | false => rw [Output.frameWorked_of_second feed start]; rfl
  | true =>
    rw [Output.frameWorked_of_frameStart feed start]
    exact ((x.bounded feed).modes.inject_eq.1).trans (x.bounded_eq feed).2.1

/-- What steps 1 to 3 of R63 write of an output: the modes, the word, the frozen context with the next context id,
and the frame decision. -/
theorem Output.frameWorked_eq (feed : FeedState) (p : Pulse) (x : Output) :
    x.frameWorked feed p =
      { x with
        modes := (x.frameWorked feed p).modes
        word := x.word ||| frameConds x.modes (x.frameWorked feed p).modes
        ctx :=
          { x.ctx.refrozen x.modes.mode (x.frameWorked feed p).modes.mode with
            decision := (x.frameWorked feed p).ctx.decision } } := by
  cases start : p.frameStart with
  | false =>
    rw [Output.frameWorked_of_second feed start, frameConds_self, Contexts.refrozen_self]
    simp
  | true =>
    have taken := x.frameWorked_mode feed p
    rw [start, if_pos rfl] at taken
    rw [taken, Output.frameWorked_of_frameStart feed start]
    obtain ⟨bounded, mode, injection⟩ := x.bounded_eq feed
    obtain ⟨keptMode, keptExpired, done⟩ := (x.bounded feed).modes.inject_eq
    have word : ((x.bounded feed).decide).word = x.word ||| frameConds x.modes (x.bounded feed).decide.modes := by
      simp only [Output.decide, frameConds, done, keptMode, keptExpired, mode, injection]
      rw [bounded]
      simp only [BitVec.or_assoc]
    rw [← word]
    simp only [Output.decide]
    generalize (x.bounded feed).modes = m at *
    rw [bounded]

/-- The pins that the frame work places and takes back: those of a frozen context made on entry into FREEZE, and of
one released on leaving it (R135, R136). -/
theorem State.frameWork_repins (o : OutId) (c : OutputConfig) (p : Pulse) (s : State) {x y : Output}
    (before : s.outputs[o] = x) (after : (s.frameWork o c p).outputs[o] = y) :
    s.Repins (fun f n k => k + pinsOf f n [x.ctx.gained x.modes.mode y.modes.mode]
      - pinsOf f n [x.ctx.lost x.modes.mode y.modes.mode]) (s.frameWork o c p) := by
  rw [State.frameWork_outputs, vector_set_self, before] at after
  have mode := x.frameWorked_mode s.feeds[c.feed].cadence.state p
  rw [after] at mode
  rw [mode]
  unfold State.frameWork
  split
  · have first : s.Repins (fun _ _ k => k) (s.modifyOutput o Output.applyPending) :=
      State.Repins.of_feeds (State.modifyOutput_feeds ..)
    refine ((first.trans (State.refreeze_repins o s.outputs[o].modes.mode _)).feeds_eq
      (u := (s.frameBoundary o c).modifyOutput o Output.decide) ?_).congr fun f n k => ?_
    · simp only [State.modifyOutput_feeds, State.frameBoundary]
    · rw [State.modifyOutput_outputs, vector_set_self, Output.applyPending_eq, before]
  · exact (State.Repins.of_feeds rfl).congr fun f n k => by simp

end Sys2Proof.Machine
end

section
/-! The latch of an output (R63, R64): the selection, what is written of the output, the pins and class 3. -/

namespace Sys2Proof.Machine

/-! ### The selection does not see the pins (R67, R68) -/

/-- Records that differ in their pins alone give the same selection. -/
theorem select_repin (g : SampleNo → Nat → Nat) (f : FeedId) (ps : Nat) (mode : Temporal) (t : Stamp)
    (h : List SampleRecord) :
    select f ps mode t (h.map fun r => { r with pins := g r.number r.pins }) = select f ps mode t h := by
  have a : recordA t (h.map fun r => { r with pins := g r.number r.pins }) =
      (recordA t h).map fun r => { r with pins := g r.number r.pins } := by
    simp only [recordA, eligible, List.filter_map, List.getLast?_map]
    rfl
  have b : recordB t (h.map fun r => { r with pins := g r.number r.pins }) =
      (recordB t h).map fun r => { r with pins := g r.number r.pins } := by
    simp only [recordB, eligible, List.filter_map, List.find?_map]
    rfl
  unfold select
  rw [a, b]
  cases recordA t h <;> cases recordB t h <;> rfl

theorem State.choose_repin {g : FeedId → SampleNo → Nat → Nat} {s t : State} (pins : s.Repins g t)
    (tick : t.tick = s.tick) (c : OutputConfig) (d : FrameDecision) (frozen : Option Context) :
    t.choose c d frozen = s.choose c d frozen := by
  unfold State.choose
  rw [pins c.feed, tick]
  simp only [Feed.repin, select_repin]

/-- The conditions that a selection's flags tell in CONVERT (R70, R72, R73). -/
def Selection.flagConds (x : Selection) : Conds :=
  (if x.kind = .convert ∧ x.flags.underrun = true then underrun else 0) |||
  (if x.kind = .convert ∧ x.flags.excess = true then delayExcess else 0) |||
  (if x.kind = .convert ∧ x.flags.gap = true then gapNearest else 0)

/-- A selection sets the conditions that its flags tell, UNDERRUN alone. -/
structure Selection.Tells (x : Selection) : Prop where
  conds : x.conds = x.flagConds
  isUnderrun : x.conds = underrun ↔ x.kind = .convert ∧ x.flags.underrun = true

theorem Selection.tells_of_none {x : Selection} (none_ : x.conds = 0) (kind : x.kind ≠ .convert) : x.Tells where
  conds := by simp [none_, Selection.flagConds, kind]
  isUnderrun := by simp [none_, kind, underrun, bit]

theorem select_tells (f : FeedId) (ps : Nat) (mode : Temporal) (t : Stamp) (h : List SampleRecord) :
    (select f ps mode t h).Tells := by
  unfold select
  split
  · next a b _ _ =>
    refine ⟨by simp [Selection.flagConds], ?_⟩
    dsimp only
    split <;> simp [underrun, gapNearest, bit]
  · exact ⟨by simp [Selection.flagConds], by simp⟩
  · exact ⟨by simp [Selection.flagConds], by simp [underrun, delayExcess, bit]⟩
  · exact Selection.tells_of_none rfl (by simp)

theorem State.choose_tells (s : State) (c : OutputConfig) (d : FrameDecision) (frozen : Option Context) :
    (s.choose c d frozen).Tells := by
  unfold State.choose
  split
  · exact Selection.tells_of_none rfl (by simp [Selection.plain])
  · split
    · exact Selection.tells_of_none rfl (by simp [Selection.plain])
    · split
      · exact Selection.tells_of_none rfl (by simp [Selection.ofFrozen])
      · exact Selection.tells_of_none rfl (by simp [Selection.plain])
    · exact select_tells ..

/-! ### What the latch writes of the output -/

/-- Step 6 of R63 on the output: the replaced context, if there is one, is given up (R76). -/
def Output.giveWay (old : Option Context) (x : Output) : Output :=
  match old with
  | none => x
  | some y =>
    { x with
      builder := x.builder.invalidateFor y.id
      ctx := { x.ctx with retired := if y.uses = 0 then x.ctx.retired else some y } }

/-- Steps 4 to 10 of R63 on the output, with the selection made. -/
def Output.latchedWith (sel : Selection) (p : Pulse) (now : Tick) (x : Output) : Output :=
  let y := newContext x.ctx sel p now
  let old := x.ctx.held p.parity
  ((Output.giveWay old { x with ctx := x.ctx.install y p }).publish old).latched y sel

/-- The selection of a latch of the output `x` (R65). -/
def State.selection (c : OutputConfig) (x : Output) (s : State) : Selection :=
  s.choose c (x.ctx.frameDecision x.modes.mode) x.ctx.frozen

theorem State.retire_outputs (o : OutId) (y : Context) (s : State) :
    (s.retire o y).outputs = s.outputs.set o (s.outputs[o].giveWay (some y)) := by
  unfold State.retire
  simp only
  split
  · next unused =>
    rw [State.unpin_outputs, State.modifyBuilder_outputs]
    simp [Output.giveWay, unused]
  · next used =>
    rw [State.modifyContexts_outputs, State.modifyBuilder_outputs, vector_set_self, Vector.set_set]
    simp [Output.giveWay, used]

/-- The state of a latch before its trace entry: the frame work done, the new context installed with its pins, the
replaced one given up, the output written (R63). -/
def State.latchBody (o : OutId) (c : OutputConfig) (p : Pulse) (s : State) : State :=
  let s1 := s.frameWork o c p
  let out := s1.outputs[o]
  let sel := s1.selection c out
  let x := newContext out.ctx sel p s1.tick
  let old := out.ctx.held p.parity
  let s2 := (s1.pin x).modifyContexts o (Contexts.install x p)
  let s3 := match old with
    | some y => s2.retire o y
    | none => s2
  s3.modifyOutput o fun out => (out.publish old).latched x sel

/-- The context that a latch makes. -/
def State.made (o : OutId) (c : OutputConfig) (p : Pulse) (s : State) : Context :=
  let x := s.outputs[o].frameWorked s.feeds[c.feed].cadence.state p
  newContext x.ctx (s.selection c x) p s.tick

theorem State.frameWork_tick (o : OutId) (c : OutputConfig) (p : Pulse) (s : State) :
    (s.frameWork o c p).tick = s.tick :=
  (s.frameWork_changesOnly o c p) .time (by simp [feedParts])

/-- The selection after the frame work is the one on the state before it (R65). -/
theorem State.selection_frameWork (o : OutId) (c : OutputConfig) (p : Pulse) (x : Output) (s : State) :
    (s.frameWork o c p).selection c x = s.selection c x :=
  State.choose_repin (s.frameWork_repins o c p rfl rfl) (s.frameWork_tick o c p) ..

theorem State.made_eq (o : OutId) (c : OutputConfig) (p : Pulse) (s : State) :
    newContext (s.frameWork o c p).outputs[o].ctx
      ((s.frameWork o c p).selection c (s.frameWork o c p).outputs[o]) p (s.frameWork o c p).tick = s.made o c p := by
  rw [State.selection_frameWork, State.frameWork_tick, State.frameWork_outputs, vector_set_self]
  rfl

theorem State.latch_eq {o : OutId} {c : OutputConfig} {s : State} (config : s.outputs[o].config = some c)
    (p : Pulse) :
    s.latch o p =
      ((s.latchBody o c p).queueTrace o ((s.made o c p).number.toNat % 64) (s.made o c p).traceEntry).mark
        (.output o) := by
  rw [← State.made_eq]
  simp only [State.latch, config]
  rfl

/-- What a latch makes of its output, told by the output before it. -/
def State.latchedOutput (o : OutId) (c : OutputConfig) (p : Pulse) (s : State) : Output :=
  let x := s.outputs[o].frameWorked s.feeds[c.feed].cadence.state p
  x.latchedWith (s.selection c x) p s.tick

theorem State.latchBody_outputs (o : OutId) (c : OutputConfig) (p : Pulse) (s : State) :
    (s.latchBody o c p).outputs = s.outputs.set o (s.latchedOutput o c p) := by
  unfold State.latchBody State.latchedOutput
  simp only [State.selection_frameWork, State.frameWork_tick, State.frameWork_outputs, vector_set_self]
  generalize worked : s.outputs[o].frameWorked s.feeds[c.feed].cadence.state p = x
  have written (y : Context) :
      (((s.frameWork o c p).pin y).modifyContexts o (Contexts.install y p)).outputs =
        s.outputs.set o { x with ctx := x.ctx.install y p } := by
    rw [State.modifyContexts_outputs, State.pin_outputs, State.frameWork_outputs, vector_set_self, Vector.set_set,
      worked]
  cases old : x.ctx.held p.parity with
  | none =>
    simp only [State.modifyOutput_outputs, written, vector_set_self, Vector.set_set, Output.latchedWith, old,
      Output.giveWay]
  | some y =>
    simp only [State.modifyOutput_outputs, State.retire_outputs, written, vector_set_self, Vector.set_set,
      Output.latchedWith, old]

/-- The pins that a replaced context takes back: none where a build uses it (R76). -/
theorem State.retire_repins (o : OutId) (y : Context) (s : State) :
    s.Repins (fun f n k => k - pinsOf f n [(some y).filter fun y => y.uses = 0]) (s.retire o y) := by
  unfold State.retire
  simp only
  split
  · next unused =>
    have first : s.Repins (fun _ _ k => k) (s.modifyBuilder o (LineBuilder.invalidateFor y.id)) :=
      State.Repins.of_feeds (State.modifyBuilder_feeds ..)
    refine (first.trans (State.unpin_repins y _)).congr fun f n k => ?_
    simp [Option.filter, unused]
  · next used =>
    have kept : s.Repins (fun _ _ k => k)
        ((s.modifyBuilder o (LineBuilder.invalidateFor y.id)).modifyContexts o
          fun c => { c with retired := some y }) :=
      State.Repins.of_feeds ((State.modifyContexts_feeds ..).trans (State.modifyBuilder_feeds ..))
    refine kept.congr fun f n k => ?_
    simp [Option.filter, used]

theorem State.retire_onlyMarks {ps : List Part} {o : OutId} (named : .output o ∈ ps) (y : Context) (s : State) :
    s.onlyMarks ps (s.retire o y) := by
  unfold State.retire
  simp only
  split
  · exact State.onlyMarks_trans (State.modifyOutput_onlyMarks _ s named) (State.unpin_onlyMarks ps y _)
  · exact State.onlyMarks_trans (State.modifyOutput_onlyMarks _ s named) (State.modifyOutput_onlyMarks _ _ named)

/-- The pins that a latch changes: a frozen context made and one released, the new context, and the replaced one
(R75, R76, R135, R136). -/
def State.latchPins (o : OutId) (c : OutputConfig) (p : Pulse) (s : State) (f : FeedId) (n : SampleNo) (k : Nat) :
    Nat :=
  let x := s.outputs[o]
  let now := (x.frameWorked s.feeds[c.feed].cadence.state p).modes.mode
  k + pinsOf f n [x.ctx.gained x.modes.mode now] - pinsOf f n [x.ctx.lost x.modes.mode now]
    + (s.made o c p).pinsOn f n
    - pinsOf f n [(x.ctx.held p.parity).filter fun y => y.uses = 0]

theorem Output.frameWorked_held (feed : FeedState) (p : Pulse) (x : Output) (q : Parity) :
    (x.frameWorked feed p).ctx.held q = x.ctx.held q := by
  rw [Output.frameWorked_eq, Contexts.refrozen_eq]
  cases q <;> rfl

theorem State.latchBody_repins (o : OutId) (c : OutputConfig) (p : Pulse) (s : State) :
    s.Repins (s.latchPins o c p) (s.latchBody o c p) := by
  have worked : (s.frameWork o c p).outputs[o] = s.outputs[o].frameWorked s.feeds[c.feed].cadence.state p := by
    rw [State.frameWork_outputs, vector_set_self]
  have held : (s.frameWork o c p).outputs[o].ctx.held p.parity = s.outputs[o].ctx.held p.parity := by
    rw [worked, Output.frameWorked_held]
  unfold State.latchBody State.latchPins
  simp only [State.made_eq, held]
  have pinned := ((s.frameWork_repins o c p rfl worked).trans
    ((s.frameWork o c p).pin_repins (s.made o c p))).feeds_eq
    (u := ((s.frameWork o c p).pin (s.made o c p)).modifyContexts o (Contexts.install (s.made o c p) p))
    (State.modifyContexts_feeds ..)
  cases s.outputs[o].ctx.held p.parity with
  | none => exact (pinned.feeds_eq (State.modifyOutput_feeds ..)).congr fun f n k => by simp
  | some y => exact (pinned.trans (State.retire_repins o y _)).feeds_eq (State.modifyOutput_feeds ..)

theorem State.latchBody_onlyMarks {ps : List Part} {o : OutId} (named : .output o ∈ ps) (c : OutputConfig)
    (p : Pulse) (s : State) : s.onlyMarks ps (s.latchBody o c p) := by
  have installed (y : Context) : s.onlyMarks ps
      (((s.frameWork o c p).pin y).modifyContexts o (Contexts.install y p)) :=
    State.onlyMarks_trans (State.onlyMarks_trans (State.frameWork_onlyMarks named c p s)
      (State.pin_onlyMarks ps y _)) (State.modifyOutput_onlyMarks _ _ named)
  unfold State.latchBody
  refine State.onlyMarks_trans ?_ (State.modifyOutput_onlyMarks _ _ named)
  split
  · exact State.onlyMarks_trans (installed _) (State.retire_onlyMarks named _ _)
  · exact installed _

/-- A trace entry is shown by no output, no feed and no other piece than class 3 (R83). -/
theorem State.latch_outputs {o : OutId} {c : OutputConfig} {s : State} (config : s.outputs[o].config = some c)
    (p : Pulse) : (s.latch o p).outputs = s.outputs.set o (s.latchedOutput o c p) := by
  rw [State.latch_eq config, State.mark_outputs, ← State.latchBody_outputs]
  unfold State.queueTrace
  split <;> rfl

theorem State.latch_repins {o : OutId} {c : OutputConfig} {s : State} (config : s.outputs[o].config = some c)
    (p : Pulse) : s.Repins (s.latchPins o c p) (s.latch o p) := by
  refine (s.latchBody_repins o c p).feeds_eq ?_
  rw [State.latch_eq config, State.mark_feeds]
  unfold State.queueTrace
  split <;> rfl

end Sys2Proof.Machine
end

section
/-! A pulse leaves what the statements call `State.Latched` (R63, R64). -/

namespace Sys2Proof.Machine

/-! ### The new context in its place -/

theorem Contexts.install_held_self (y : Context) (p : Pulse) (c : Contexts) :
    (c.install y p).held p.parity = some y := by
  obtain ⟨q, start, cause⟩ := p
  unfold Contexts.install
  dsimp only
  split
  · next h =>
    have other : q ≠ q.other := fun e => (by simpa using h : cause = .start ∧ q ≠ .whole).2
      (Parity.other_eq_self.1 e.symm)
    cases q with
    | whole => exact absurd rfl other
    | top | bottom => rfl
  · cases q <;> rfl

theorem Contexts.install_held_other {q : Parity} {p : Pulse} (other : q ≠ p.parity) (y : Context) (c : Contexts) :
    (c.install y p).held q =
      if p.cause = .start ∧ q = p.parity.other then some (placeholder y) else c.held q := by
  obtain ⟨r, start, cause⟩ := p
  dsimp only at other
  unfold Contexts.install
  by_cases h : cause = .start
  · subst h
    cases r <;> cases q <;> first | rfl | exact absurd rfl other
  · simp only [h, false_and, decide_false, Bool.false_and, Bool.false_eq_true, if_false]
    cases r <;> cases q <;> first | rfl | exact absurd rfl other

theorem Contexts.install_nextId (y : Context) (p : Pulse) (c : Contexts) :
    (c.install y p).nextId =
      c.nextId + if p.cause = .start ∧ p.parity ≠ p.parity.other then 2 else 1 := by
  obtain ⟨q, start, cause⟩ := p
  unfold Contexts.install
  cases cause <;> cases q <;> simp [Parity.other, Contexts.setHeld]

/-- The install writes the held contexts and the next context id alone. -/
theorem Contexts.install_eq (y : Context) (p : Pulse) (c : Contexts) :
    c.install y p =
      { c with
        heldWhole := (c.install y p).heldWhole
        heldTop := (c.install y p).heldTop
        heldBottom := (c.install y p).heldBottom
        nextId := (c.install y p).nextId } := by
  obtain ⟨q, start, cause⟩ := p
  unfold Contexts.install
  dsimp only
  split <;> cases q <;> rfl

/-! ### The output after the latch -/

/-- The condition of a replaced context with clips (R80). -/
def clipConds (old : Option Context) : Conds := if ∃ y ∈ old, y.clips ≠ 0 then clipped else 0

/-- What steps 4 to 10 of R63 write of an output. -/
theorem Output.latchedWith_eq (sel : Selection) (p : Pulse) (now : Tick) (x : Output) :
    x.latchedWith sel p now =
      { x with
        report :=
          { x.report with
            latchTick := now.setWidth 32, kind := sel.kind, weight := sel.weight, flags := sel.flags
            lastClip := (x.publish (x.ctx.held p.parity)).report.lastClip }
        word := x.word ||| clipConds (x.ctx.held p.parity) ||| sel.conds
        builder := (x.giveWay (x.ctx.held p.parity)).builder
        ctx :=
          { x.ctx.install (newContext x.ctx sel p now) p with
            retired := (x.giveWay (x.ctx.held p.parity)).ctx.retired
            underruns := if sel.conds = underrun then bump x.ctx.underruns else x.ctx.underruns
            counter := x.ctx.counter + 1
            traceIndex := (x.ctx.counter + 1).toNat % 64 } } := by
  unfold Output.latchedWith
  generalize made : newContext x.ctx sel p now = y
  have kind : y.kind = sel.kind ∧ y.weight = sel.weight ∧ y.flags = sel.flags ∧ y.latchTick = now := by
    subst made; exact ⟨rfl, rfl, rfl, rfl⟩
  obtain ⟨kind, weight, flags, tick⟩ := kind
  have installed := x.ctx.install_eq y p
  cases x.ctx.held p.parity with
  | none =>
    simp only [Output.giveWay, Output.publish, Output.latched, kind, weight, flags, tick, clipConds]
    rw [installed]
    simp
  | some z =>
    simp only [Output.giveWay, Output.publish, Output.latched, kind, weight, flags, tick, clipConds]
    rw [installed]
    by_cases clips : z.clips = 0 <;> simp [clips]

/-! ### From the state before a pulse to the one after it -/

/-- Only output `o` has been written, by `g`, with marks of its record and the device word worked out again. -/
structure State.Rewrites (o : OutId) (g : Output → Output) (s t : State) : Prop where
  outputs : t.outputs = s.outputs.set o (g s.outputs[o])
  feeds : t.feeds = s.feeds
  only : s.changesOnly [.output o, .class3, .deviceWord] t
  marks : s.onlyMarks [.output o] t

theorem State.rewrites_refl (o : OutId) (s : State) : s.Rewrites o id s :=
  ⟨(vector_set_same _ o).symm, rfl, s.changesOnly_refl _, State.onlyMarks_of_class3 rfl⟩

theorem State.modifyOutput_rewrites (o : OutId) (g : Output → Output) (s : State) :
    s.Rewrites o g (s.modifyOutput o g) :=
  ⟨s.modifyOutput_outputs o g, State.modifyOutput_feeds .., s.modifyOutput_changesOnly o g,
    s.modifyOutput_onlyMarks g (by simp)⟩

theorem State.Rewrites.trans {o : OutId} {g h : Output → Output} {s t u : State} (st : s.Rewrites o g t)
    (tu : t.Rewrites o h u) : s.Rewrites o (h ∘ g) u where
  outputs := by rw [tu.outputs, st.outputs, vector_set_self, Vector.set_set]; rfl
  feeds := tu.feeds.trans st.feeds
  only := State.changesOnly_trans st.only tu.only
  marks := State.onlyMarks_trans st.marks tu.marks

theorem State.Rewrites.congr {o : OutId} {g h : Output → Output} {s t : State} (st : s.Rewrites o g t)
    (e : g s.outputs[o] = h s.outputs[o]) : s.Rewrites o h t := { st with outputs := e ▸ st.outputs }

theorem State.Rewrites.self {o : OutId} {g : Output → Output} {s t : State} (st : s.Rewrites o g t) :
    t.outputs[o] = g s.outputs[o] := by rw [st.outputs, vector_set_self]

/-- An output at the pulse that ends its wait is RUNNING (R53). -/
def Output.begun (cause : PulseCause) (x : Output) : Output :=
  { x with state := if cause = .start then .running else x.state }

/-- An output after its latch: the generator loaded, REF_REALIGN set at a realignment (R53, R55, R57). -/
def Output.reloaded (c : OutputConfig) (p : Pulse) (x : Output) : Output :=
  { x with
    gen := ⟨true, c.period, p.parity.other⟩
    word := x.word ||| if p.cause = .realign then refRealign else 0 }

/-- A pulse has been taken: the output made RUNNING at a start, the latch, the generator loaded. -/
structure State.Pulsed (o : OutId) (c : OutputConfig) (p : Pulse) (s t : State) : Prop where
  config : s.outputs[o].config = some c
  frameStart : p.frameStart = decide (p.parity = firstParity c.order)
  path : ∃ u, s.Rewrites o (Output.begun p.cause) u ∧ (u.latch o p).Rewrites o (Output.reloaded c p) t

/-- The output of a pulse after steps 1 to 3 of R63. -/
def State.worked (o : OutId) (c : OutputConfig) (p : Pulse) (s : State) : Output :=
  (s.outputs[o].begun p.cause).frameWorked s.feeds[c.feed].cadence.state p

/-- The context that a pulse latches. -/
def State.newest (o : OutId) (c : OutputConfig) (p : Pulse) (s : State) : Context :=
  newContext (s.worked o c p).ctx (s.selection c (s.worked o c p)) p s.tick

theorem Output.frameWorked_ctx (feed : FeedState) (p : Pulse) (x : Output) :
    (x.frameWorked feed p).ctx =
      { x.ctx.refrozen x.modes.mode (x.frameWorked feed p).modes.mode with
        decision := (x.frameWorked feed p).ctx.decision } :=
  congrArg Output.ctx (x.frameWorked_eq feed p)

section pulse
variable {o : OutId} {c : OutputConfig} {p : Pulse} {s : State}

theorem State.worked_held (q : Parity) : (s.worked o c p).ctx.held q = s.outputs[o].ctx.held q :=
  Output.frameWorked_held ..

theorem State.worked_ctx :
    (s.worked o c p).ctx =
      { s.outputs[o].ctx.refrozen s.outputs[o].modes.mode (s.worked o c p).modes.mode with
        decision := (s.worked o c p).ctx.decision } := Output.frameWorked_ctx ..

theorem State.worked_counters :
    (s.worked o c p).ctx.counter = s.outputs[o].ctx.counter ∧
      (s.worked o c p).ctx.underruns = s.outputs[o].ctx.underruns ∧
      (s.worked o c p).ctx.retired = s.outputs[o].ctx.retired := by
  rw [State.worked_ctx, Contexts.refrozen_eq]
  exact ⟨rfl, rfl, rfl⟩

theorem State.worked_frozen : (s.worked o c p).ctx.frozen =
    (s.outputs[o].ctx.refrozen s.outputs[o].modes.mode (s.worked o c p).modes.mode).frozen := by
  rw [State.worked_ctx]

theorem State.worked_nextId : (s.worked o c p).ctx.nextId =
    (s.outputs[o].ctx.refrozen s.outputs[o].modes.mode (s.worked o c p).modes.mode).nextId := by
  rw [State.worked_ctx]

theorem State.worked_of_second (second : p.frameStart = false) :
    s.worked o c p = s.outputs[o].begun p.cause := Output.frameWorked_of_second _ second _

section pulsed
variable {t : State} (h : s.Pulsed o c p t)
include h

/-- The state between the two writes of a pulse: what its latch sees is what the state before the pulse shows. -/
theorem State.Pulsed.middle : ∃ u, s.Rewrites o (Output.begun p.cause) u ∧ u.outputs[o].config = some c ∧
    u.tick = s.tick ∧ (∀ x, u.selection c x = s.selection c x) ∧ u.made o c p = s.newest o c p ∧
    (u.latch o p).Rewrites o (Output.reloaded c p) t := by
  obtain ⟨config, -, u, su, ut⟩ := h
  have tick : u.tick = s.tick := su.only .time (by simp)
  have selection (x : Output) : u.selection c x = s.selection c x :=
    State.choose_repin (State.Repins.of_feeds su.feeds) tick ..
  refine ⟨u, su, by rw [su.self]; exact config, tick, selection, ?_, ut⟩
  simp only [State.made, su.self, su.feeds, selection, tick]
  rfl

/-- What is written of the output from the state before a pulse to the one after it. -/
theorem State.Pulsed.output : t.outputs[o] =
    ((s.worked o c p).latchedWith (s.selection c (s.worked o c p)) p s.tick).reloaded c p := by
  obtain ⟨u, su, config, tick, selection, -, ut⟩ := h.middle
  rw [ut.self, State.latch_outputs config, vector_set_self, State.latchedOutput, su.self, su.feeds, selection, tick]
  rfl

theorem State.Pulsed.repins :
    s.Repins (fun f n k =>
      k + pinsOf f n [s.outputs[o].ctx.gained s.outputs[o].modes.mode (s.worked o c p).modes.mode]
        - pinsOf f n [s.outputs[o].ctx.lost s.outputs[o].modes.mode (s.worked o c p).modes.mode]
        + (s.newest o c p).pinsOn f n
        - pinsOf f n [(s.outputs[o].ctx.held p.parity).filter fun y => y.uses = 0]) t := by
  obtain ⟨u, su, config, tick, -, made, ut⟩ := h.middle
  refine (((State.Repins.of_feeds su.feeds).trans (State.latch_repins config p)).feeds_eq ut.feeds).congr
    fun f n k => ?_
  simp only [State.latchPins, made, su.self, su.feeds]
  rfl

theorem State.Pulsed.only : s.changesOnly ([.output o, .class3, .deviceWord] ++ feedParts) t := by
  obtain ⟨-, -, u, su, ut⟩ := h
  exact State.changesOnly_trans (State.changesOnly_mono su.only (by simp))
    (State.changesOnly_trans (u.latch_changesOnly o p) (State.changesOnly_mono ut.only (by simp)))

theorem State.Pulsed.class3 : ∃ before : State, s.onlyMarks [.output o] before ∧
    ((before.queueTrace o ((s.newest o c p).number.toNat % 64) (s.newest o c p).traceEntry).mark
      (.output o)).onlyMarks [.output o] t := by
  obtain ⟨u, su, config, -, -, made, ut⟩ := h.middle
  refine ⟨u.latchBody o c p, State.onlyMarks_trans su.marks (State.latchBody_onlyMarks (by simp) c p u), ?_⟩
  rw [← made, ← State.latch_eq config]
  exact ut.marks

theorem State.Pulsed.modes : t.outputs[o].modes = (s.worked o c p).modes := by
  rw [h.output, Output.latchedWith_eq]; rfl

theorem State.Pulsed.ctx : t.outputs[o].ctx =
    { (s.worked o c p).ctx.install (s.newest o c p) p with
      retired := (s.outputs[o].giveWay (s.outputs[o].ctx.held p.parity)).ctx.retired
      underruns := if (s.selection c (s.worked o c p)).conds = underrun then bump s.outputs[o].ctx.underruns
        else s.outputs[o].ctx.underruns
      counter := s.outputs[o].ctx.counter + 1
      traceIndex := (s.outputs[o].ctx.counter + 1).toNat % 64 } := by
  obtain ⟨counter, underruns, retired⟩ := State.worked_counters (o := o) (c := c) (p := p) (s := s)
  rw [h.output, Output.latchedWith_eq, State.worked_held]
  simp only [Output.reloaded, counter, underruns]
  cases s.outputs[o].ctx.held p.parity <;> simp [Output.giveWay, retired, State.newest]

theorem State.Pulsed.held (q : Parity) : t.outputs[o].ctx.held q =
    if q = p.parity then some (s.newest o c p)
    else if p.cause = .start ∧ q = p.parity.other then some (placeholder (s.newest o c p))
    else s.outputs[o].ctx.held q := by
  have installed : t.outputs[o].ctx.held q = ((s.worked o c p).ctx.install (s.newest o c p) p).held q := by
    rw [h.ctx]; cases q <;> rfl
  rw [installed]
  split
  · next same => subst same; exact Contexts.install_held_self ..
  · next other => rw [Contexts.install_held_other other, State.worked_held]

end pulsed

end pulse

end Sys2Proof.Machine
end

section
/-! Every pulse latches, and what a reference pulse makes of each output (R48 to R57, R63, R64). -/

namespace Sys2Proof.Machine

section pulse
variable {o : OutId} {c : OutputConfig} {p : Pulse} {s t : State}

theorem State.newest_number : (s.newest o c p).number = s.outputs[o].ctx.counter :=
  State.worked_counters.1

theorem State.newest_id : (s.newest o c p).id = s.outputs[o].ctx.nextId +
    if (s.outputs[o].ctx.gained s.outputs[o].modes.mode (s.worked o c p).modes.mode).isSome then 1 else 0 := by
  show (s.worked o c p).ctx.nextId = _
  rw [State.worked_nextId, Contexts.refrozen_nextId]

/-- A context is frozen on the way into FREEZE exactly when a CONVERT one is held (R135). -/
theorem Contexts.gained_isSome {before now : Mode} {k : Contexts} :
    (k.gained before now).isSome = true ↔
      before ≠ .freeze ∧ now = .freeze ∧ ∃ q y, k.held q = some y ∧ y.kind = .convert := by
  unfold Contexts.gained Contexts.frozenCopy
  by_cases enter : before ≠ .freeze ∧ now = .freeze
  · rw [if_pos enter, Option.isSome_map]
    simp only [enter.1, enter.2, ne_eq, not_false_eq_true, true_and]
    cases latest : k.latestConvert with
    | none =>
      simp only [Option.isSome_none, Bool.false_eq_true, false_iff]
      rintro ⟨q, y, held, convert⟩
      exact Contexts.latestConvert_none latest q y held convert
    | some y =>
      obtain ⟨⟨q, held⟩, convert⟩ := Contexts.latestConvert_some latest
      simpa using ⟨q, y, held, convert⟩
  · rw [if_neg enter]
    simp only [Option.isSome_none, Bool.false_eq_true, false_iff]
    rintro ⟨h, k, -⟩
    exact enter ⟨h, k⟩

/-- The conditions that a pulse sets are those of `latchConds`. -/
theorem State.Pulsed.word (h : s.Pulsed o c p t) : t.outputs[o].word = s.outputs[o].word |||
    latchConds (s.newest o c p) (s.outputs[o].ctx.held p.parity) p.cause s.outputs[o] t.outputs[o] := by
  have tells : (s.selection c (s.worked o c p)).conds = (s.selection c (s.worked o c p)).flagConds :=
    (State.choose_tells ..).conds
  have word : (s.worked o c p).word = s.outputs[o].word ||| frameConds s.outputs[o].modes (s.worked o c p).modes :=
    congrArg Output.word (Output.frameWorked_eq ..)
  have written : t.outputs[o].word = (s.outputs[o].word ||| frameConds s.outputs[o].modes t.outputs[o].modes) |||
      clipConds (s.outputs[o].ctx.held p.parity) ||| (s.selection c (s.worked o c p)).flagConds |||
      (if p.cause = .realign then refRealign else 0) := by
    rw [h.modes, ← word, h.output, Output.latchedWith_eq, State.worked_held]
    simp only [Output.reloaded]
    rw [← tells]
  rw [written]
  simp only [latchConds, frameConds, clipConds, Selection.flagConds, State.newest, newContext]
  simp only [underrun, delayExcess, gapNearest, clipped, modeChanged, holdExpired, slateDone, refRealign, bit]
  ac_rfl

/-- What the frame work leaves of an output. -/
theorem State.worked_kept :
    (s.worked o c p).state = (if p.cause = .start then .running else s.outputs[o].state) ∧
      (s.worked o c p).config = s.outputs[o].config ∧ (s.worked o c p).report = s.outputs[o].report ∧
      (s.worked o c p).builder = s.outputs[o].builder ∧ (s.worked o c p).mask = s.outputs[o].mask ∧
      (s.worked o c p).updates = s.outputs[o].updates := by
  unfold State.worked
  rw [Output.frameWorked_eq]
  exact ⟨rfl, rfl, rfl, rfl, rfl, rfl⟩

/-- What a pulse writes of the output but for the modes, the contexts and the word (R53, R55, R76, R80, R81). -/
theorem State.Pulsed.rest (h : s.Pulsed o c p t) : t.outputs[o] =
    { s.outputs[o] with
      state := if p.cause = .start then .running else s.outputs[o].state
      gen := ⟨true, c.period, p.parity.other⟩
      modes := t.outputs[o].modes
      ctx := t.outputs[o].ctx
      builder := (s.outputs[o].giveWay (s.outputs[o].ctx.held p.parity)).builder
      report :=
        { s.outputs[o].report with
          latchTick := s.tick.setWidth 32, kind := (s.newest o c p).kind, weight := (s.newest o c p).weight
          flags := (s.newest o c p).flags
          lastClip := (s.outputs[o].publish (s.outputs[o].ctx.held p.parity)).report.lastClip }
      word := t.outputs[o].word } := by
  obtain ⟨state, config, report, builder, mask, updates⟩ :=
    State.worked_kept (o := o) (c := c) (p := p) (s := s)
  have gone (old : Option Context) :
      ((s.worked o c p).giveWay old).builder = (s.outputs[o].giveWay old).builder ∧
        ((s.worked o c p).publish old).report.lastClip = (s.outputs[o].publish old).report.lastClip := by
    cases old <;> simp [Output.giveWay, Output.publish, builder, report]
  rw [h.output, Output.latchedWith_eq, State.worked_held, (gone _).1, (gone _).2]
  simp only [Output.reloaded, state, config, report, mask, updates]
  rfl

theorem State.Pulsed.builder (h : s.Pulsed o c p t) :
    t.outputs[o].builder = (s.outputs[o].giveWay (s.outputs[o].ctx.held p.parity)).builder := by rw [h.rest]

/-! ### The selection by the frame decision (R65, R74) -/

section choose
variable {d : FrameDecision} {frozen : Option Context} (shown : d.slate = false)

theorem State.choose_of_slate (slate : d.slate = true) : s.choose c d frozen = Selection.plain .slate :=
  if_pos slate

include shown

theorem State.choose_of_fill (fill : d.mode = .fill ∨ (d.mode = .freeze ∧ frozen = none)) :
    s.choose c d frozen = Selection.plain .fill := by
  unfold State.choose
  rcases fill with fill | ⟨freeze, rfl⟩
  · simp [shown, fill]
  · simp [shown, freeze]

theorem State.choose_of_freeze {z : Context} (freeze : d.mode = .freeze) :
    s.choose c d (some z) = Selection.ofFrozen z := by
  simp [State.choose, shown, freeze]

theorem State.choose_of_convert {fc : FeedConfig} (convert : d.mode = .convert)
    (config : s.feeds[c.feed].config = some fc) : s.choose c d frozen =
      select c.feed fc.period c.temporal (targetStamp s.tick c.delay) s.feeds[c.feed].history := by
  simp only [State.choose, shown, convert, config]
  rfl

end choose

/-- The underrun counter advances at UNDERRUN until it saturates (R72). -/
theorem Selection.Tells.underruns {x : Selection} (tells : x.Tells) (n : Nat) :
    (if x.conds = underrun then bump n else n) =
      if x.kind = .convert ∧ x.flags.underrun = true ∧ n < 65535 then n + 1 else n := by
  by_cases told : x.kind = .convert ∧ x.flags.underrun = true
  · rw [if_pos (tells.isUnderrun.2 told)]
    by_cases room : n < 65535 <;> simp [bump, Config.saturation, told, room]
  · rw [if_neg (mt tells.isUnderrun.1 told), if_neg fun h => told ⟨h.1, h.2.1⟩]

/-- Under R135's rule that a frozen context is there in FREEZE alone, the frozen contexts gained and lost are those
that the statements name. -/
theorem Contexts.gained_lost {m n : Mode} {k : Contexts} (rule : m ≠ .freeze → k.frozen = none) :
    k.gained m n = (if m = .freeze then none else (k.refrozen m n).frozen) ∧
      k.lost m n = if n = .freeze then none else k.frozen := by
  rw [Contexts.refrozen_frozen]
  by_cases before : m = .freeze
  · subst before
    simp [Contexts.gained, Contexts.lost]
  · simp [Contexts.lost, before, rule before]

theorem State.Pulsed.decision (h : s.Pulsed o c p t) :
    t.outputs[o].ctx.decision = (s.worked o c p).ctx.decision ∧
      t.outputs[o].ctx.frozen = (s.worked o c p).ctx.frozen ∧
      t.outputs[o].ctx.nextId =
        (s.newest o c p).id + if p.cause = .start ∧ p.parity ≠ p.parity.other then 2 else 1 := by
  rw [h.ctx]
  refine ⟨?_, ?_, Contexts.install_nextId ..⟩ <;> dsimp only <;> rw [Contexts.install_eq]

theorem State.Pulsed.feeds (h : s.Pulsed o c p t) (f : FeedId) :
    t.feeds[f] = { s.feeds[f] with history := t.feeds[f].history } ∧
      t.feeds[f].history.map (fun r => { r with pins := 0 }) =
        s.feeds[f].history.map (fun r => { r with pins := 0 }) := by
  rw [h.repins f]
  exact ⟨rfl, by simp [Feed.repin]⟩

theorem State.Pulsed.pins (h : s.Pulsed o c p t)
    (rule : s.outputs[o].modes.mode ≠ .freeze → s.outputs[o].ctx.frozen = none) (f : FeedId) :
    t.feeds[f].history = s.feeds[f].history.map fun r =>
      { r with
        pins := r.pins
          + pinsOf f r.number [if s.outputs[o].modes.mode = .freeze then none else t.outputs[o].ctx.frozen]
          - pinsOf f r.number [if t.outputs[o].modes.mode = .freeze then none else s.outputs[o].ctx.frozen]
          + (s.newest o c p).pinsOn f r.number
          - pinsOf f r.number [(s.outputs[o].ctx.held p.parity).filter fun y => y.uses = 0] } := by
  obtain ⟨gained, lost⟩ := Contexts.gained_lost (n := t.outputs[o].modes.mode) rule
  have frozen : (s.outputs[o].ctx.refrozen s.outputs[o].modes.mode t.outputs[o].modes.mode).frozen =
      t.outputs[o].ctx.frozen := by rw [h.decision.2.1, State.worked_frozen, h.modes]
  rw [frozen] at gained
  rw [← gained, ← lost, h.repins f, ← h.modes]
  rfl

theorem State.Pulsed.choice (h : s.Pulsed o c p t) (d : FrameDecision)
    (decided : d = t.outputs[o].ctx.decision.getD ⟨t.outputs[o].modes.mode, false⟩) :
    s.choose c d t.outputs[o].ctx.frozen = s.selection c (s.worked o c p) := by
  rw [decided, h.decision.1, h.decision.2.1, h.modes]
  rfl

/-- A pulse leaves what the statements call latched. -/
theorem State.Pulsed.latched (h : s.Pulsed o c p t) :
    s.Latched o c p.parity p.cause (s.newest o c p) t where
  frame := h.only
  output := by
    refine h.rest.trans ?_
    rw [← h.builder, ← h.word]
    cases s.outputs[o].ctx.held p.parity <;> rfl
  new := ⟨rfl, State.newest_number, rfl, rfl, rfl⟩
  held := by rw [h.held, if_pos rfl]
  others q other := by
    rw [h.held, if_neg other]
    by_cases start : p.cause = .start ∧ q = p.parity.other
    · rw [if_pos start, if_pos start]
      obtain ⟨-, rfl⟩ := start
      rfl
    · rw [if_neg start, if_neg start]
  id := by
    rw [h.modes, State.newest_id]
    constructor
    · intro now before convert
      rw [if_pos (Contexts.gained_isSome.2 ⟨before, now, convert⟩)]
    · intro stays
      rw [if_neg]
      · simp
      intro gained
      obtain ⟨before, now, q, y, held, convert⟩ := Contexts.gained_isSome.1 gained
      rcases stays with stays | stays | stays
      · exact stays now
      · exact before stays
      · exact stays q y held convert
  nextId := h.decision.2.2
  counters := by
    rw [h.ctx]
    exact ⟨rfl, rfl, Selection.Tells.underruns (State.choose_tells ..) _⟩
  retired y held := by
    rw [h.builder, h.ctx, held]
    exact ⟨rfl, rfl⟩
  unretired none_ := by
    rw [h.builder, h.ctx, none_]
    exact ⟨rfl, rfl⟩
  feeds := h.feeds
  pins := h.pins
  class3 := by
    obtain ⟨before, marks, after⟩ := h.class3
    rw [State.newest_number] at after
    refine ⟨before, _, marks, ?_,
      State.onlyMarks_trans (State.mark_onlyMarks _ _ (.inr (by simp [RecordSel.part]))) after⟩
    unfold State.queueTrace
    split <;> rfl
  marked := by
    obtain ⟨before, -, after⟩ := h.class3
    exact State.mem_of_onlyMarks after (State.mark_marked ..)
  choice d decided := by
    have chosen := h.choice d decided
    refine ⟨fun slate => ?_, fun shown fill => ?_, fun z shown freeze frozen => ?_,
      fun fc sel shown convert config selected => ?_⟩
    · rw [State.choose_of_slate slate] at chosen
      rw [State.newest, ← chosen]
      exact ⟨rfl, rfl, rfl, rfl, rfl⟩
    · rw [State.choose_of_fill shown fill] at chosen
      rw [State.newest, ← chosen]
      exact ⟨rfl, rfl, rfl, rfl, rfl⟩
    · rw [frozen, State.choose_of_freeze shown freeze] at chosen
      rw [State.newest, ← chosen]
      exact ⟨rfl, rfl, rfl, rfl, rfl⟩
    · rw [State.choose_of_convert shown convert config] at chosen
      rw [State.newest, ← chosen, selected]
      exact ⟨rfl, rfl, rfl, rfl, rfl⟩
  second other := by
    have second : p.frameStart = false := by rw [h.frameStart]; simpa using other
    obtain ⟨decision, frozen, -⟩ := h.decision
    rw [h.modes, decision, frozen, State.worked_of_second second]
    exact ⟨rfl, rfl, rfl⟩

end pulse

/-! ### The three causes of a pulse (R54) -/

/-- The pulse of an underflow (R52, R54, R55). -/
def Output.underflowPulse (c : OutputConfig) (x : Output) : Pulse := ⟨x.gen.next, x.gen.next = c.p1, .underflow⟩

theorem Output.begun_of_running {cause : PulseCause} (notStart : cause ≠ .start) (x : Output) :
    x.begun cause = x := by simp [Output.begun, notStart]

theorem State.rewrites_begun {cause : PulseCause} (notStart : cause ≠ .start) (o : OutId) (s : State) :
    s.Rewrites o (Output.begun cause) s :=
  (s.rewrites_refl o).congr (Output.begun_of_running notStart _).symm

theorem State.underflow_of_due {o : OutId} {c : OutputConfig} {s : State} (config : s.outputs[o].config = some c)
    (due : s.outputs[o].underflowDue = true) :
    s.underflow o = (s.latch o (s.outputs[o].underflowPulse c)).loadGenerator o
      { s.outputs[o].gen with left := c.period, next := s.outputs[o].gen.next.other } := by
  simp only [State.underflow, config, due, if_true]
  rfl

theorem State.underflow_of_not_due {o : OutId} {s : State} (due : s.outputs[o].underflowDue = false) :
    s.underflow o = s := by
  simp only [State.underflow]
  split
  · rfl
  · simp only [due, Bool.false_eq_true, if_false]

theorem Output.underflowDue_iff (x : Output) :
    x.underflowDue = true ↔ x.gen.counting = true ∧ x.gen.left = 0 := by
  simp [Output.underflowDue]

theorem State.underflow_pulsed {o : OutId} {c : OutputConfig} {s : State} (config : s.outputs[o].config = some c)
    (counting : s.outputs[o].gen.counting = true) (left : s.outputs[o].gen.left = 0) :
    s.Pulsed o c (s.outputs[o].underflowPulse c) (s.underflow o) where
  config := config
  frameStart := rfl
  path := by
    refine ⟨s, s.rewrites_begun (by simp [Output.underflowPulse]) o, ?_⟩
    rw [State.underflow_of_due config ((Output.underflowDue_iff _).2 ⟨counting, left⟩)]
    refine (State.modifyOutput_rewrites o _ _).congr ?_
    simp [Output.reloaded, Output.underflowPulse, counting, -Fin.getElem_fin]

theorem State.beginOutput_pulsed {o : OutId} {c : OutputConfig} {s : State} (config : s.outputs[o].config = some c) :
    s.Pulsed o c (c.firstPulse .start) (s.beginOutput o c) where
  config := config
  frameStart := by simp [OutputConfig.firstPulse, OutputConfig.p1]
  path := by
    have begun : s.Rewrites o (Output.begun .start) (s.modifyOutput o fun x => { x with state := .running }) :=
      (State.modifyOutput_rewrites o _ s).congr (by simp [Output.begun])
    refine ⟨_, begun, (State.modifyOutput_rewrites o (fun x => { x with gen := c.loaded }) _).congr ?_⟩
    simp [Output.reloaded, OutputConfig.firstPulse, OutputConfig.loaded]

theorem State.realign_pulsed {o : OutId} {c : OutputConfig} {s : State} (config : s.outputs[o].config = some c) :
    s.Pulsed o c (c.firstPulse .realign) (s.realign o c) where
  config := config
  frameStart := by simp [OutputConfig.firstPulse, OutputConfig.p1]
  path := by
    refine ⟨s, s.rewrites_begun (by simp [OutputConfig.firstPulse]) o, ?_⟩
    have loaded := State.modifyOutput_rewrites o (fun x => { x with gen := c.loaded })
      (s.latch o (c.firstPulse .realign))
    refine (loaded.trans (State.modifyOutput_rewrites o (fun x => { x with word := x.word ||| refRealign }) _)).congr ?_
    simp [Output.reloaded, OutputConfig.firstPulse, OutputConfig.loaded]

end Sys2Proof.Machine
end

section
/-! A reference pulse taken by the outputs in turn (R48, R53, R56, R57). -/

namespace Sys2Proof.Machine

/-! ### One output -/

/-- A start or a realignment: the two ways of an output to take a reference pulse. -/
theorem State.offerPulse_of_takes {r : Ref} {o : OutId} {c : OutputConfig} {cause : PulseCause} {s : State}
    (takes : s.outputs[o].takesPulse r c cause) : s.Pulsed o c (c.firstPulse cause) (s.offerPulse r o) := by
  obtain ⟨config, ref, ⟨rfl, starting⟩ | ⟨rfl, running, first, second⟩⟩ := takes
  · have offered : s.offerPulse r o = s.beginOutput o c := by
      simp [State.offerPulse, config, ref, starting, -Fin.getElem_fin]
    rw [offered]
    exact State.beginOutput_pulsed config
  · have apart : s.outputs[o].gen.coincident c = false := by
      simp only [Generator.coincident, Bool.or_eq_false_iff, Bool.and_eq_false_imp, decide_eq_true_eq,
        decide_eq_false_iff_not]
      exact ⟨fun h k => first ⟨h, k⟩, fun h k => second ⟨h, k⟩⟩
    have offered : s.offerPulse r o = s.realign o c := by
      simp [State.offerPulse, config, ref, running, apart, -Fin.getElem_fin]
    rw [offered]
    exact State.realign_pulsed config

theorem State.offerPulse_of_not_takes {r : Ref} {o : OutId} {s : State}
    (none_ : ∀ c cause, ¬ s.outputs[o].takesPulse r c cause) : s.offerPulse r o = s := by
  simp only [State.offerPulse]
  split
  · rfl
  · next c config =>
    split
    · rfl
    · next ref =>
      rw [ne_eq, not_not] at ref
      split
      · rfl
      · rfl
      · next starting => exact absurd ⟨config, ref, .inl ⟨rfl, starting⟩⟩ (none_ c .start)
      · next running =>
        split
        · rfl
        · next apart =>
          simp only [Generator.coincident, Bool.or_eq_true, Bool.and_eq_true, decide_eq_true_eq, not_or] at apart
          exact absurd ⟨config, ref, .inr ⟨rfl, running, apart.1, apart.2⟩⟩ (none_ c .realign)

theorem State.offerPulse_changesOnly (r : Ref) (o : OutId) (s : State) :
    s.changesOnly ([.output o, .class3, .deviceWord] ++ feedParts) (s.offerPulse r o) := by
  by_cases takes : ∃ c cause, s.outputs[o].takesPulse r c cause
  · obtain ⟨c, cause, takes⟩ := takes
    exact (State.offerPulse_of_takes takes).only
  · rw [State.offerPulse_of_not_takes fun c cause h => takes ⟨c, cause, h⟩]
    exact s.changesOnly_refl _

theorem State.offerPulse_feeds (r : Ref) (o : OutId) (s : State) : ∃ g, s.Repins g (s.offerPulse r o) := by
  by_cases takes : ∃ c cause, s.outputs[o].takesPulse r c cause
  · obtain ⟨c, cause, takes⟩ := takes
    exact ⟨_, (State.offerPulse_of_takes takes).repins⟩
  · rw [State.offerPulse_of_not_takes fun c cause h => takes ⟨c, cause, h⟩]
    exact ⟨_, State.Repins.of_feeds rfl⟩

/-- A mark stays through the pulses of other outputs: a trace entry takes the place of a trace entry alone (R83). -/
theorem State.queueTrace_keeps_marked {r : RecordSel} {s : State} (m : s.marked r) (o : OutId) (i : Nat)
    (bytes : List Byte) : (s.queueTrace o i bytes).marked r := by
  unfold State.marked State.queueTrace at *
  split
  · exact List.mem_map.2 ⟨_, m, by simp [Housekeeping.isTrace]⟩
  · simp [m]

theorem State.Pulsed.keeps_marked {r : RecordSel} {o : OutId} {c : OutputConfig} {p : Pulse} {s t : State}
    (h : s.Pulsed o c p t) (m : s.marked r) : t.marked r := by
  obtain ⟨before, marks, after⟩ := h.class3
  exact State.mem_of_onlyMarks after (State.mark_keeps _
    (State.queueTrace_keeps_marked (State.mem_of_onlyMarks marks m) ..))

theorem State.offerPulse_keeps_marked {x : RecordSel} {s : State} (m : s.marked x) (r : Ref) (o : OutId) :
    (s.offerPulse r o).marked x := by
  by_cases takes : ∃ c cause, s.outputs[o].takesPulse r c cause
  · obtain ⟨c, cause, takes⟩ := takes
    exact (State.offerPulse_of_takes takes).keeps_marked m
  · rw [State.offerPulse_of_not_takes fun c cause h => takes ⟨c, cause, h⟩]
    exact m

/-! ### The outputs in turn -/

/-- The state of a reference pulse when the first `n` outputs have been offered it. -/
def State.offered (r : Ref) (s : State) (n : Nat) : State :=
  (allOutputs.take n).foldl (fun s o => s.offerPulse r o) (s.putRef r ⟨true, s.tick⟩)

theorem State.offered_succ (r : Ref) (s : State) (o : OutId) :
    s.offered r (o.val + 1) = (s.offered r o.val).offerPulse r o := by
  fin_cases o <;> rfl

/-- The four pulses offered, as one chain. -/
theorem State.offered_induction {P : Nat → State → Prop} {r : Ref} {s : State} (first : P 0 (s.offered r 0))
    (next : ∀ o : OutId, P o.val (s.offered r o.val) → P (o.val + 1) ((s.offered r o.val).offerPulse r o)) :
    ∀ n ≤ 4, P n (s.offered r n)
  | 0, _ => first
  | n + 1, h => by
    have step := next ⟨n, h⟩ (State.offered_induction first next n (Nat.le_of_lt h))
    rwa [← State.offered_succ] at step

theorem State.putRef_ref (r : Ref) (x : RefInput) (s : State) : (s.putRef r x).ref r = x := by
  cases r <;> simp only [State.putRef] <;> split <;> simp [State.ref]

theorem State.putRef_changesOnly (r : Ref) (x : RefInput) (s : State) :
    s.changesOnly [.ref r, .class3] (s.putRef r x) := by
  have marked {q : Ref} {t : State} (write : s.changesOnly [.ref q, .class3] t) :
      s.changesOnly [.ref q, .class3] (t.mark .device) :=
    State.changesOnly_trans write (State.changesOnly_mono (t.mark_changesOnly .device) (by simp))
  cases r with
  | refA =>
    have write : s.changesOnly [.ref .refA, .class3] { s with refA := x } := by
      rintro (_ | _ | (_ | _)) named <;> simp_all [State.same, State.ref]
    simp only [State.putRef]
    split
    · exact write
    · exact marked write
  | refB =>
    have write : s.changesOnly [.ref .refB, .class3] { s with refB := x } := by
      rintro (_ | _ | (_ | _)) named <;> simp_all [State.same, State.ref]
    simp only [State.putRef]
    split
    · exact write
    · exact marked write

theorem State.putRef_marked {r : Ref} {x : RefInput} {s : State} (changed : x.present ≠ (s.ref r).present) :
    (s.putRef r x).marked .device := by
  simp only [State.putRef, if_neg changed]
  exact State.mark_marked ..

/-- An output keeps what it was until its own turn (log entry 25). -/
theorem State.offered_output_before (r : Ref) (s : State) {n : Nat} (small : n ≤ 4) (o : OutId) :
    n ≤ o.val → (s.offered r n).outputs[o] = s.outputs[o] := by
  refine State.offered_induction (P := fun n u => n ≤ o.val → u.outputs[o] = s.outputs[o]) (fun _ => ?_)
    (fun q kept later => ?_) n small
  · exact s.putRef_changesOnly r _ (.output o) (by simp)
  · have other : o ≠ q := fun e => by subst e; omega
    exact ((State.offerPulse_changesOnly r q _) (.output o) (by simpa [feedParts] using other)).trans
      (kept (Nat.le_of_lt later))

/-- An output keeps what its own turn has made of it. -/
theorem State.offered_output_after (r : Ref) (s : State) {n : Nat} (small : n ≤ 4) (o : OutId) :
    o.val < n → (s.offered r n).outputs[o] = (s.offered r (o.val + 1)).outputs[o] := by
  refine State.offered_induction
    (P := fun n u => o.val < n → u.outputs[o] = (s.offered r (o.val + 1)).outputs[o]) (fun h => by omega)
    (fun q kept later => ?_) n small
  by_cases own : o = q
  · subst own; rw [State.offered_succ]
  · have earlier : o.val < q.val := by
      have : o.val ≠ q.val := fun e => own (Fin.ext e)
      omega
    exact ((State.offerPulse_changesOnly r q _) (.output o) (by simpa [feedParts] using own)).trans (kept earlier)

theorem State.offered_tick (r : Ref) (s : State) {n : Nat} (small : n ≤ 4) : (s.offered r n).tick = s.tick := by
  refine State.offered_induction (P := fun _ u => u.tick = s.tick) ?_ (fun q kept => ?_) n small
  · exact s.putRef_changesOnly r _ .time (by simp)
  · exact ((State.offerPulse_changesOnly r q _) .time (by simp [feedParts])).trans kept

theorem State.offered_ref (r : Ref) (s : State) {n : Nat} (small : n ≤ 4) :
    (s.offered r n).ref r = ⟨true, s.tick⟩ := by
  refine State.offered_induction (P := fun _ u => u.ref r = ⟨true, s.tick⟩) (s.putRef_ref ..) (fun q kept => ?_) n
    small
  exact ((State.offerPulse_changesOnly r q _) (.ref r) (by simp [feedParts])).trans kept

theorem State.offered_changesOnly (r : Ref) (s : State) {n : Nat} (small : n ≤ 4) :
    s.changesOnly ([.ref r, .class3, .deviceWord] ++ feedParts ++ outputParts) (s.offered r n) := by
  refine State.offered_induction
    (P := fun _ u => s.changesOnly ([.ref r, .class3, .deviceWord] ++ feedParts ++ outputParts) u)
    (State.changesOnly_mono (s.putRef_changesOnly r _) (by simp)) (fun q kept => ?_) n small
  refine State.changesOnly_trans kept (State.changesOnly_mono (State.offerPulse_changesOnly r q _) ?_)
  fin_cases q <;> simp [feedParts, outputParts]

theorem State.offered_feeds (r : Ref) (s : State) {n : Nat} (small : n ≤ 4) :
    ∃ g, s.Repins g (s.offered r n) := by
  refine State.offered_induction (P := fun _ u => ∃ g, s.Repins g u) ?_ (fun q kept => ?_) n small
  · exact ⟨_, State.Repins.of_feeds (State.putRef_feeds ..)⟩
  · obtain ⟨g, pins⟩ := kept
    obtain ⟨h, more⟩ := State.offerPulse_feeds r q (s.offered r q.val)
    exact ⟨_, pins.trans more⟩

/-- A mark made by the turn of some output, or before the first one, is there at the end. -/
theorem State.offered_marked {r : Ref} {s : State} {x : RecordSel} {m n : Nat} (small : n ≤ 4)
    (marked : (s.offered r m).marked x) : m ≤ n → (s.offered r n).marked x := by
  refine State.offered_induction (P := fun n u => m ≤ n → u.marked x) (fun h => ?_) (fun q kept later => ?_) n small
  · obtain rfl : m = 0 := by omega
    exact marked
  · rcases Nat.lt_or_ge q.val m with now | earlier
    · obtain rfl : m = q.val + 1 := by omega
      rwa [← State.offered_succ]
    · exact State.offerPulse_keeps_marked (kept earlier) r q

/-- What a reference pulse makes of an output that takes it. -/
theorem State.offered_pulsed {r : Ref} {o : OutId} {c : OutputConfig} {cause : PulseCause} {s : State}
    (takes : s.outputs[o].takesPulse r c cause) :
    (s.offered r o.val).Pulsed o c (c.firstPulse cause) (s.offered r (o.val + 1)) := by
  rw [State.offered_succ]
  refine State.offerPulse_of_takes ?_
  rw [State.offered_output_before r s (Nat.le_of_lt o.isLt) o (Nat.le_refl _)]
  exact takes

theorem State.offered_latched {r : Ref} {o : OutId} {c : OutputConfig} {cause : PulseCause} {s : State}
    (takes : s.outputs[o].takesPulse r c cause) :
    ∃ x, (s.offered r o.val).Latched o c (firstParity c.order) cause x (s.offered r (o.val + 1)) :=
  ⟨_, (State.offered_pulsed takes).latched⟩

theorem State.offered_of_not_takes {r : Ref} {o : OutId} {s : State}
    (none_ : ∀ c cause, ¬ s.outputs[o].takesPulse r c cause) :
    s.offered r (o.val + 1) = s.offered r o.val := by
  rw [State.offered_succ]
  refine State.offerPulse_of_not_takes ?_
  rw [State.offered_output_before r s (Nat.le_of_lt o.isLt) o (Nat.le_refl _)]
  exact none_

/-! ### The statements -/

/-- Out of reset a row has its meaning (log entry 3). -/
theorem State.unlessReset_of_running {s : State} (run : s.resetting = false) (act : State → Answer) :
    s.unlessReset act = act s := by simp [State.unlessReset, run]

theorem exec_underflow {s : State} (run : s.resetting = false) (o : OutId) :
    exec (.underflow o) s = .next (s.underflow o) :=
  State.unlessReset_of_running run fun s => .next (s.underflow o)

theorem exec_referencePulse {s : State} (run : s.resetting = false) (r : Ref) :
    exec (.referencePulse r) s = .next (s.offered r 4) :=
  State.unlessReset_of_running run fun s => .next (s.referencePulse r)

theorem Conds.or_and_right (a b m : Conds) : (a ||| b) &&& m = (a &&& m) ||| (b &&& m) := by
  ext i
  simp [Bool.and_or_distrib_right]

theorem Conds.and_or_self (w m : Conds) : (w &&& m) ||| m = m := by
  ext i
  simp only [BitVec.getElem_or, BitVec.getElem_and]
  cases w[i] <;> cases m[i] <;> rfl

/-- REF_REALIGN is the condition of a realignment and of no other pulse (R57). -/
theorem latchConds_and_realign (x : Context) (old : Option Context) (cause : PulseCause) (s t : Output) :
    latchConds x old cause s t &&& 0x0100 = if cause = .realign then 0x0100 else 0 := by
  have other (p : Prop) [Decidable p] (k : Conds) (apart : k &&& 0x0100 = 0) :
      (if p then k else 0) &&& (0x0100 : Conds) = 0 := by
    split
    · exact apart
    · simp
  simp only [latchConds, Conds.or_and_right, other _ _ (show (0x0001 : Conds) &&& 0x0100 = 0 from rfl),
    other _ _ (show (0x0002 : Conds) &&& 0x0100 = 0 from rfl),
    other _ _ (show (0x0004 : Conds) &&& 0x0100 = 0 from rfl),
    other _ _ (show (0x0008 : Conds) &&& 0x0100 = 0 from rfl),
    other _ _ (show (0x0020 : Conds) &&& 0x0100 = 0 from rfl),
    other _ _ (show (0x0040 : Conds) &&& 0x0100 = 0 from rfl),
    other _ _ (show (0x0080 : Conds) &&& 0x0100 = 0 from rfl)]
  split <;> rfl

/-- Settles O42: an underflow, a start and a realignment are each a pulse, and a pulse latches. -/
theorem pulsesLatchContexts : Obligations.PulsesLatchContexts := by
  refine ⟨fun o s run idle => ?_, fun o c s run config counting left => ?_, fun r s run => ?_⟩
  · have due : s.outputs[o].underflowDue = false := by
      rw [← Bool.not_eq_true, Output.underflowDue_iff]
      rintro ⟨counting, left⟩
      rcases idle with idle | idle
      · rw [counting] at idle; cases idle
      · exact idle left
    rw [exec_underflow run, State.underflow_of_not_due due]
  · have pulsed := State.underflow_pulsed config counting left
    exact ⟨_, _, exec_underflow run o, pulsed.latched⟩
  · refine ⟨s.offered r, exec_referencePulse run r, s.putRef_changesOnly r _, s.putRef_onlyMarks _ r _,
      s.putRef_ref r _, fun o => ⟨State.offered_of_not_takes, fun c cause takes => State.offered_latched takes⟩⟩

/-- Settles O41: each output's turn is a latch, and what it leaves stays through the turns of the others. -/
theorem referencePulseStartsAndRealigns : Obligations.ReferencePulseStartsAndRealigns := by
  intro r s run
  refine ⟨s.offered r 4, exec_referencePulse run r, s.offered_ref r (Nat.le_refl _), fun absent => ?_,
    s.offered_changesOnly r (Nat.le_refl _), fun f => ?_, fun o none_ => ?_, fun o c cause takes => ?_⟩
  · exact State.offered_marked (m := 0) (Nat.le_refl _) (State.putRef_marked (by simp [absent])) (Nat.zero_le _)
  · obtain ⟨g, pins⟩ := s.offered_feeds r (Nat.le_refl 4)
    rw [pins f]
    exact ⟨rfl, by simp [Feed.repin]⟩
  · rw [State.offered_output_after r s (Nat.le_refl _) o o.isLt, State.offered_of_not_takes none_,
      State.offered_output_before r s (Nat.le_of_lt o.isLt) o (Nat.le_refl _)]
  · obtain ⟨x, latched⟩ := State.offered_latched takes
    have before := State.offered_output_before r s (Nat.le_of_lt o.isLt) o (Nat.le_refl _)
    have marked := State.offered_marked (Nat.le_refl 4) latched.marked o.isLt
    rw [State.offered_output_after r s (Nat.le_refl _) o o.isLt]
    obtain ⟨config, -, way⟩ := takes
    have state : (if cause = .start then OutputState.running else s.outputs[o].state) = .running := by
      rcases way with ⟨rfl, -⟩ | ⟨-, running, -⟩
      · rfl
      · rw [running, ite_self]
    have written := latched.output
    simp only [before] at written
    obtain ⟨parity, number, tick, clips, uses⟩ := latched.new
    rw [before] at number
    rw [State.offered_tick r s (Nat.le_of_lt o.isLt)] at tick
    refine ⟨?_, ?_, ?_, ?_, marked, ⟨_, latched.held, parity, number, tick, clips, uses⟩, fun realign => ?_,
      fun start => ?_, fun start interlaced => ?_⟩
    · rw [written]; exact state
    · rw [written]; exact config
    · rw [written]
    · rw [latched.counters.1, before]
    · rw [written]
      simp only [Conds.or_and_right, latchConds_and_realign, if_pos realign]
      exact Conds.and_or_self _ _
    · rw [written]
      simp only [Conds.or_and_right, latchConds_and_realign, start]
      exact BitVec.or_zero
    · have apart : (firstParity c.order).other ≠ firstParity c.order := by
        cases order : c.order with
        | none => exact absurd order interlaced
        | some q => cases q <;> simp [firstParity, Parity.other]
      exact ⟨_, (latched.others _ apart).trans (if_pos ⟨start, rfl⟩), rfl, number, rfl, rfl⟩

end Sys2Proof.Machine
end

section
/-! The outputs' rules (R51, R52, R55, R61, R62, R135) told of one output: what they ask of its contexts, and what a
change of the output must keep to keep them. -/

namespace Sys2Proof.Machine

/-! ### The contents of contexts (R61, R135) -/

/-- A weight of at most 256, and two records in CONVERT and FREEZE and none otherwise (R61). -/
def Kind.Fits (kind : Kind) (a b : Option RecordRef) (weight : Nat) : Prop :=
  weight ≤ 256 ∧ ((kind = .convert ∨ kind = .freeze) → a.isSome = true ∧ b.isSome = true) ∧
    (kind ≠ .convert → kind ≠ .freeze → a = none ∧ b = none)

/-- A context keeps R61. -/
def Context.Sound (y : Context) : Prop := y.kind.Fits y.a y.b y.weight

/-- Every context of an output keeps R61, and the frozen one is a copy of a CONVERT context (R135). -/
structure Contexts.Sound (k : Contexts) : Prop where
  held : ∀ p y, k.held p = some y → y.Sound
  frozen : ∀ y, k.frozen = some y → y.Sound ∧ y.kind = .convert
  retired : ∀ y, k.retired = some y → y.Sound

theorem Contexts.sound_iff {k : Contexts} :
    k.Sound ↔ (∀ y, some y ∈ k.all → y.Sound) ∧ ∀ y, k.frozen = some y → y.kind = .convert := by
  constructor
  · intro h
    refine ⟨fun y m => ?_, fun y f => (h.frozen y f).2⟩
    rcases Contexts.mem_all.1 m with ⟨p, held⟩ | frozen | retired
    · exact h.held p y held
    · exact (h.frozen y frozen).1
    · exact h.retired y retired
  · rintro ⟨all, convert⟩
    exact ⟨fun p y e => all y (Contexts.mem_all.2 (.inl ⟨p, e⟩)),
      fun y e => ⟨all y (Contexts.mem_all.2 (.inr (.inl e))), convert y e⟩,
      fun y e => all y (Contexts.mem_all.2 (.inr (.inr e)))⟩

theorem Kind.fits_plain {kind : Kind} (convert : kind ≠ .convert) (freeze : kind ≠ .freeze) :
    kind.Fits none none 0 := by
  refine ⟨by omega, ?_, fun _ _ => ⟨rfl, rfl⟩⟩
  rintro (h | h)
  · exact absurd h convert
  · exact absurd h freeze

theorem Kind.fits_both {kind : Kind} (shown : kind = .convert ∨ kind = .freeze) (a b : RecordRef) {weight : Nat}
    (small : weight ≤ 256) : kind.Fits (some a) (some b) weight := by
  refine ⟨small, fun _ => ⟨rfl, rfl⟩, fun convert freeze => ?_⟩
  rcases shown with h | h
  · exact absurd h convert
  · exact absurd h freeze

theorem blendWeight_le (sa sb t : Stamp) : blendWeight sa sb t ≤ 256 := by
  have clamped : ∀ v : Int, clampTo 0 256 v ≤ 256 := fun v => by unfold clampTo; omega
  exact Int.toNat_le.2 (clamped _)

theorem nearestWeight_le (w : Nat) : nearestWeight w ≤ 256 := by
  unfold nearestWeight
  split <;> omega

/-- A CONVERT selection names two records, and its weight is at most 256 (R68 to R73). -/
theorem select_fits (f : FeedId) (ps : Nat) (mode : Temporal) (t : Stamp) (h : List SampleRecord) :
    (select f ps mode t h).kind.Fits (select f ps mode t h).a (select f ps mode t h).b
      (select f ps mode t h).weight := by
  unfold select
  split
  · refine Kind.fits_both (.inl rfl) _ _ ?_
    dsimp only
    split
    · exact nearestWeight_le _
    · exact blendWeight_le ..
  · exact Kind.fits_both (.inl rfl) _ _ (Nat.zero_le 256)
  · exact Kind.fits_both (.inl rfl) _ _ (Nat.zero_le 256)
  · exact Kind.fits_plain (by simp) (by simp)

theorem State.choose_fits (s : State) (c : OutputConfig) (d : FrameDecision) {frozen : Option Context}
    (copy : ∀ y, frozen = some y → y.Sound ∧ y.kind = .convert) :
    (s.choose c d frozen).kind.Fits (s.choose c d frozen).a (s.choose c d frozen).b
      (s.choose c d frozen).weight := by
  have plain {kind : Kind} (convert : kind ≠ .convert) (freeze : kind ≠ .freeze) :
      (Selection.plain kind).kind.Fits (Selection.plain kind).a (Selection.plain kind).b
        (Selection.plain kind).weight := Kind.fits_plain convert freeze
  unfold State.choose
  split
  · exact plain (by simp) (by simp)
  · split
    · exact plain (by simp) (by simp)
    · split
      · next y =>
        obtain ⟨⟨small, both, -⟩, convert⟩ := copy y rfl
        exact ⟨small, fun _ => both (.inl convert), fun _ freeze => absurd rfl freeze⟩
      · exact plain (by simp) (by simp)
    · exact select_fits ..

/-! ### Changes of an output that keep its rules -/

theorem Output.Holds.sound {x : Output} (h : x.Holds) : x.ctx.Sound :=
  Contexts.sound_iff.2 ⟨h.contents, h.frozen⟩

/-- A change that leaves the state, the configuration, the count and the next parity of the generator, which
contexts are there, and a frame decision's absence, keeps the rules if the contexts keep theirs. -/
theorem Output.Holds.change {x y : Output} (h : x.Holds) (state : y.state = x.state) (config : y.config = x.config)
    (counting : y.gen.counting = x.gen.counting) (next : y.gen.next = x.gen.next)
    (held : ∀ p, (y.ctx.held p).isSome = (x.ctx.held p).isSome)
    (frozen : x.ctx.frozen = none → y.ctx.frozen = none) (decision : x.ctx.decision = none → y.ctx.decision = none)
    (sound : y.ctx.Sound) : y.Holds where
  counting := by rw [counting, state]; exact h.counting
  configured := by rw [config, state]; exact h.configured
  contexts stopped := by
    obtain ⟨whole, top, bottom, noFrozen, noDecision⟩ := h.contexts (state ▸ stopped)
    have gone (p : Parity) (e : x.ctx.held p = none) : y.ctx.held p = none := by
      have := held p
      rwa [e, Option.isSome_none, Option.isSome_eq_false_iff, Option.isNone_iff_eq_none] at this
    exact ⟨gone .whole whole, gone .top top, gone .bottom bottom, frozen noFrozen, decision noDecision⟩
  scan c running e p := by rw [held p]; exact h.scan c (state ▸ running) (config ▸ e) p
  next c running e := by rw [next]; exact h.next c (state ▸ running) (config ▸ e)
  contents := (Contexts.sound_iff.1 sound).1
  frozen := (Contexts.sound_iff.1 sound).2

/-- The rules speak of the state, the configuration, the generator and the contexts alone. -/
theorem Output.Holds.congr {x y : Output} (h : x.Holds) (state : y.state = x.state) (config : y.config = x.config)
    (gen : y.gen = x.gen) (ctx : y.ctx = x.ctx) : y.Holds := by
  obtain ⟨counting, next⟩ : y.gen.counting = x.gen.counting ∧ y.gen.next = x.gen.next := by rw [gen]; exact ⟨rfl, rfl⟩
  exact h.change state config counting next (fun p => by rw [ctx]) (fun e => ctx ▸ e) (fun e => ctx ▸ e)
    (ctx ▸ h.sound)

/-- An output that is not RUNNING keeps the rules when it holds no context and its generator is idle. -/
theorem Output.holds_of_stopped {x : Output} (stopped : x.state ≠ .running) (idle : x.gen.counting = false)
    (configured : x.config.isSome = true ↔ x.state ≠ .unconfigured) (held : ∀ p, x.ctx.held p = none)
    (frozen : x.ctx.frozen = none) (decision : x.ctx.decision = none)
    (retired : ∀ y, x.ctx.retired = some y → y.Sound) : x.Holds where
  counting := by simp [idle, stopped]
  configured := configured
  contexts _ := ⟨held .whole, held .top, held .bottom, frozen, decision⟩
  scan _ running := absurd running stopped
  next _ running := absurd running stopped
  contents := (Contexts.sound_iff.1 ⟨fun p y e => by simp [held p] at e, fun y e => by simp [frozen] at e, retired⟩).1
  frozen y e := by simp [frozen] at e

theorem Output.Holds.held_none {x : Output} (h : x.Holds) (stopped : x.state ≠ .running) (p : Parity) :
    x.ctx.held p = none := by
  obtain ⟨whole, top, bottom, -, -⟩ := h.contexts stopped
  cases p
  · exact whole
  · exact top
  · exact bottom

/-! ### A pulse keeps the rules -/

theorem Contexts.Sound.refrozen {k : Contexts} (h : k.Sound) (before now : Mode) : (k.refrozen before now).Sound := by
  refine ⟨fun p y held => h.held p y (by rwa [Contexts.refrozen_held] at held), fun y frozen => ?_,
    fun y retired => h.retired y (by rwa [Contexts.refrozen_eq] at retired)⟩
  rw [Contexts.refrozen_frozen, Option.or_eq_some_iff] at frozen
  rcases frozen with gained | ⟨-, kept⟩
  · unfold Contexts.gained at gained
    split at gained
    · obtain ⟨z, latest, rfl⟩ := Option.map_eq_some_iff.1 gained
      obtain ⟨⟨p, held⟩, convert⟩ := Contexts.latestConvert_some latest
      exact ⟨h.held p z held, convert⟩
    · simp at gained
  · split at kept
    · simp at kept
    · exact h.frozen y kept

/-- Before a pulse: a STARTING output at its start, or a RUNNING one at one of its two parities. -/
def Output.Awaits (c : OutputConfig) (p : Pulse) (x : Output) : Prop :=
  (p.cause = .start ∧ p.parity = firstParity c.order ∧ x.state = .starting) ∨
    (p.cause ≠ .start ∧ (p.parity = firstParity c.order ∨ p.parity = (firstParity c.order).other) ∧
      x.state = .running)

section pulse
variable {o : OutId} {c : OutputConfig} {p : Pulse} {s t : State}

theorem State.newest_sound (sound : s.outputs[o].ctx.Sound) : (s.newest o c p).Sound := by
  refine State.choose_fits s c _ fun y frozen => ?_
  rw [State.worked_frozen] at frozen
  exact (sound.refrozen _ _).frozen y frozen

theorem State.Pulsed.sound (h : s.Pulsed o c p t) (sound : s.outputs[o].ctx.Sound) : t.outputs[o].ctx.Sound where
  held q y held := by
    rw [h.held] at held
    split at held
    · cases held
      exact State.newest_sound sound
    · split at held
      · cases held
        exact Kind.fits_plain (by simp [placeholder]) (by simp [placeholder])
      · exact sound.held q y held
  frozen y frozen := by
    rw [h.decision.2.1, State.worked_frozen] at frozen
    exact (sound.refrozen _ _).frozen y frozen
  retired y retired := by
    rw [h.ctx] at retired
    cases old : s.outputs[o].ctx.held p.parity with
    | none =>
      rw [old] at retired
      exact sound.retired y retired
    | some z =>
      simp only [old, Output.giveWay] at retired
      split at retired
      · exact sound.retired y retired
      · cases retired
        exact sound.held p.parity y old

theorem State.Pulsed.holds (h : s.Pulsed o c p t) (holds : s.outputs[o].Holds) (awaits : s.outputs[o].Awaits c p) :
    t.outputs[o].Holds := by
  have rest := h.rest
  have running : t.outputs[o].state = .running := by
    rw [rest]
    rcases awaits with ⟨start, -, -⟩ | ⟨-, -, running⟩
    · exact if_pos start
    · dsimp only; rw [running, ite_self]
  have config : t.outputs[o].config = some c := by rw [rest]; exact h.config
  have gen : t.outputs[o].gen = ⟨true, c.period, p.parity.other⟩ := by rw [rest]
  have parity : p.parity = firstParity c.order ∨ p.parity = (firstParity c.order).other := by
    rcases awaits with ⟨-, first, -⟩ | ⟨-, parity, -⟩
    · exact .inl first
    · exact parity
  obtain ⟨contents, frozen⟩ := Contexts.sound_iff.1 (h.sound holds.sound)
  refine ⟨by simp [gen, running, -Fin.getElem_fin], by simp [config, running, -Fin.getElem_fin],
    fun stopped => absurd running stopped, fun d _ e q => ?_, fun d _ e => ?_, contents, frozen⟩
  · obtain rfl : c = d := by rw [config] at e; exact Option.some.inj e
    rw [h.held]
    rcases awaits with ⟨start, first, starting⟩ | ⟨notStart, -, running⟩
    · rw [holds.held_none (by simp [starting, -Fin.getElem_fin]) q, first]
      by_cases one : q = firstParity c.order
      · simp [one]
      · rw [if_neg one]
        by_cases two : q = (firstParity c.order).other
        · simp [start, two]
        · simp [one, two]
    · have kept := holds.scan c running h.config q
      by_cases own : q = p.parity
      · rw [if_pos own, own]
        simpa using parity
      · rw [if_neg own, if_neg fun both => notStart both.1]
        exact kept
  · obtain rfl : c = d := by rw [config] at e; exact Option.some.inj e
    rw [gen]
    rcases parity with first | second
    · exact .inr (by rw [first])
    · exact .inl (by rw [second, Parity.other_other])

end pulse

end Sys2Proof.Machine
end

section
/-! A command taken from an IDLE cell, carried out and settled (R166 to R170), as the statements about the commands
tell it. -/

namespace Sys2Proof.Machine

/-! ### The write of the command -/

/-- The state in which a command is carried out: its write forwarded, its cell ACTIVE with it (R166, R168). -/
def State.taken (code : Byte) (w : CellWrite) (s : State) : State :=
  (s.forward (w.burst s.controlBase code) (w.burst s.controlBase code) .control [w.cell] []).takeCell w

theorem State.putHeld_none {b : Burst} {s : State} (free : s.heldFor b = none) : s.putHeld b none = s := by
  unfold State.heldFor at free
  unfold State.putHeld
  split
  · next write => rw [if_pos write] at free; rw [← free]
  · next read => rw [if_neg read] at free; rw [← free]

/-- A whole-cell write that the Bus Port and the cell take at once is its command carried out (R157, R168). -/
theorem State.cellRow_of_ready {w : CellWrite} {s : State} (ready : s.ready w) (code : Byte)
    (run : CellWrite → State → State) : cellRow code run w s = .next (run w (s.taken code w)) := by
  obtain ⟨running, free, room, idle⟩ := ready
  have held : s.heldFor (w.burst s.controlBase code) = none := free
  have roomy : s.roomFor (w.burst s.controlBase code) = true := decide_eq_true room
  have admits : s.admits (w.burst s.controlBase code) = true := by simp only [State.admits, held, roomy]; rfl
  have idle' : (s.forward (w.burst s.controlBase code) (w.burst s.controlBase code) .control [w.cell] []).cells[w.cell]
      = none := by rw [State.forward_cells]; exact idle
  simp only [cellRow, State.unlessReset, running, Bool.false_eq_true, if_false, State.hostCommand, admits, if_true,
    State.putHeld_none held, State.acceptCommand, State.commandCell, idle, idle', Option.isNone_none,
    Option.isSome_none]
  rfl

section taken
variable (code : Byte) (w : CellWrite) (s : State)

theorem State.taken_wrote : s.wrote code w (s.taken code w) := by
  refine ⟨?_, ?_, ?_⟩ <;>
    simp [State.taken, State.takeCell, State.forward, State.openBurst, State.openWrite, CellWrite.burst]

theorem State.taken_cell : (s.taken code w).cells[w.cell] = some (ActiveCommand.fresh w.tag) := by
  rw [State.taken, State.takeCell, State.putCell_cells, vector_set_self]

@[simp] theorem State.taken_outputs : (s.taken code w).outputs = s.outputs := by
  simp [State.taken, State.takeCell]

@[simp] theorem State.taken_feeds : (s.taken code w).feeds = s.feeds := by
  simp [State.taken, State.takeCell]

theorem State.putCell_onlyMarks (ms : List Part) (c : CellId) (x : Cell) : s.onlyMarks ms (s.putCell c x) := by
  simp only [State.putCell]
  split
  · exact State.onlyMarks_of_class3 rfl
  · exact State.mark_onlyMarks (s := { s with cells := _ }) _ (.inl rfl)

variable {s}

theorem State.putCell_quietly (ms : List Part) (holds : s.noticeHolds) (c : CellId) (x : Cell) :
    s.quietly [.cell c] ms (s.putCell c x) :=
  ⟨State.changesOnly_mono (s.putCell_changesOnly c x) (by simp), s.putCell_onlyMarks ms c x,
    State.noticeHolds_congr holds (by simp [State.summaries]) (by simp) (by simp) (by simp)⟩

theorem State.taken_quietly (holds : s.noticeHolds) : s.quietly (CellParts w) [] (s.taken code w) := by
  have forwarded : s.quietly (CellParts w) []
      (s.forward (w.burst s.controlBase code) (w.burst s.controlBase code) .control [w.cell] []) := by
    refine State.quietly_of_eq [] holds (fun p named => ?_) rfl rfl rfl rfl rfl
    cases p <;> simp_all [State.same, State.ref, CellParts, State.forward, State.openBurst, State.openWrite,
      CellWrite.burst]
  exact State.quietly_trans forwarded
    (State.quietly_mono (State.putCell_quietly [] forwarded.2.2 w.cell _) (by simp [CellParts]) (by simp))

end taken

/-! ### The settling of a command that is carried out -/

theorem State.settle_of_taken {c : CellId} {tag : Byte} {s : State}
    (active : s.cells[c] = some (ActiveCommand.fresh tag)) (code : ResultCode) (detail : Byte) : s.settle c code detail =
      { s with cells := s.cells.set c (some { ActiveCommand.fresh tag with settled := some (code, detail) }) } := by
  have same : s.putCell c (some { ActiveCommand.fresh tag with settled := some (code, detail) }) =
      { s with cells := s.cells.set c (some { ActiveCommand.fresh tag with settled := some (code, detail) }) } := by
    simp [State.putCell, active, -Fin.getElem_fin]
  simp only [State.settle, active, same]
  simp [State.requestResult, ActiveCommand.fresh]

/-- A command whose effect leaves its own write alone has been carried out: what `State.carried` says of its cell and
of the frame. -/
theorem State.settled_of_quietly {code : Byte} {w : CellWrite} {s u : State} {ps ms : List Part}
    (holds : s.noticeHolds) (act : (s.taken code w).quietly ps ms u) (apart : Part.cell w.cell ∉ ps) :
    (u.settle w.cell .done 0).cells[w.cell] = settledCell w .done 0 ∧
      s.changesOnly (CellParts w ++ ps) (u.settle w.cell .done 0) ∧
      s.onlyMarks ms (u.settle w.cell .done 0) ∧
      u.settle w.cell .done 0 = { u with cells := (u.settle w.cell .done 0).cells } := by
  have active : u.cells[w.cell] = some (ActiveCommand.fresh w.tag) := by
    rw [act.1 (.cell w.cell) (by simpa using apart), State.taken_cell]
  have settled := State.settle_of_taken active .done 0
  refine ⟨by rw [settled]; simp [settledCell], ?_, ?_, by rw [settled]⟩
  · refine State.changesOnly_trans (State.changesOnly_trans
      (State.changesOnly_mono (State.taken_quietly code w holds).1 ?_) (State.changesOnly_mono act.1 ?_))
      (State.changesOnly_mono (u.settle_changesOnly w.cell .done 0) ?_)
    all_goals
      intro p named
      simp only [CellParts, List.mem_append, List.mem_cons, List.not_mem_nil, or_false] at named ⊢
      tauto
  · rw [settled]
    exact State.onlyMarks_trans (State.onlyMarks_mono (State.taken_quietly code w holds).2.1 (by simp)) act.2.1

/-- A command that changes the one output and its marks has been carried out. -/
theorem State.carried_of_quietly {code : Byte} {w : CellWrite} {s u : State} {o : OutId} (holds : s.noticeHolds)
    (act : (s.taken code w).quietly [.output o] [.output o] u) :
    s.carried code w [.output o] (u.settle w.cell .done 0) := by
  obtain ⟨cell, only, marks, settled⟩ := State.settled_of_quietly holds act (by simp)
  obtain ⟨writes, class2, serial⟩ := s.taken_wrote code w
  refine ⟨⟨?_, ?_, ?_⟩, cell, only, marks⟩
  · rw [State.settle_writes, act.1 .writes (by simp), writes]
  · rw [State.settle_class2, act.1 .class2 (by simp), class2]
  · rw [State.settle_nextSerial, act.1 .serial (by simp), serial]

theorem State.onQuad_of_target {w : CellWrite} {o : Fin 4} (target : targetQuad w = some o)
    (act : Fin 4 → State → State) (s : State) : s.onQuad w act = act o s := by
  simp [State.onQuad, target]

theorem State.judge_of_none {c : CellId} {refusal : Refused} (accepted : refusal = none) (act : State → State)
    (s : State) : s.judge c refusal act = (act s).settle c .done 0 := by rw [accepted]; rfl

theorem need_of_true {ok : Bool} (h : ok = true) (code : ResultCode) : need ok code = none := by simp [need, h]

theorem firstRefusal_none {rs : List Refused} (h : ∀ r ∈ rs, r = none) : firstRefusal rs = none := by
  induction rs with
  | nil => rfl
  | cons r rs ih =>
    obtain ⟨rfl, rest⟩ := List.forall_mem_cons.1 h
    exact ih rest

/-- A write of an output that changes what its record shows marks it (R198). -/
theorem State.putOutput_marked {o : OutId} {x : Output} {s : State} (changed : x.view ≠ s.outputs[o].view) :
    (s.putOutput o x).marked (.output o) := by
  simp only [State.putOutput, if_neg changed]
  exact State.mem_of_onlyMarks (State.refresh_onlyMarks [] _) (State.mark_marked ..)

/-! ### CONFIGURE_OUTPUT and START_OUTPUT -/

theorem State.taken_addressMap (code : Byte) (w : CellWrite) (s : State) :
    (s.taken code w).addressMap = s.addressMap := by
  have strap : (s.taken code w).strap = s.strap := by simp [State.taken, State.takeCell]
  simp only [State.addressMap, State.controlBase, State.taken_feeds, State.taken_outputs, strap]

theorem State.dropFrozen_of_none {o : OutId} {s : State} (none_ : s.outputs[o].ctx.frozen = none) :
    s.dropFrozen o = s := by simp only [State.dropFrozen, none_]

/-- What the checks of CONFIGURE_OUTPUT read is the same when the command has been taken. -/
theorem State.refuseConfigureOutput_of_accepted {o : OutId} {w : CellWrite} {s : State}
    (idle : s.outputs[o].live = false) (params : outputParamBad w = none)
    (geometry : s.geometryKnown (outputConfigOf w) = true) (overlap : s.windowOverlap o (outputConfigOf w) = none) :
    (s.taken 5 w).refuseConfigureOutput o w = none := by
  refine firstRefusal_none fun r m => ?_
  simp only [List.mem_cons, List.not_mem_nil, or_false, State.taken_outputs, State.geometryKnown,
    State.taken_feeds, State.windowOverlap, State.mapWithout, State.taken_addressMap] at m
  rcases m with rfl | rfl | rfl | rfl
  · exact need_of_true (by rw [idle]; rfl) _
  · rw [params]; rfl
  · exact need_of_true geometry _
  · exact overlap

/-- Settles O10: an output that is not live holds no frozen context, so CONFIGURE_OUTPUT is its one write. -/
theorem configureOutputWritesTheConfiguration : Obligations.ConfigureOutputWritesTheConfiguration := by
  intro w o s ready notice holds target idle params geometry overlap
  have notRunning : s.outputs[o].state ≠ .running := fun h => by simp [Output.live, h, -Fin.getElem_fin] at idle
  obtain ⟨-, -, -, frozen, -⟩ := holds.contexts notRunning
  have dropped : (s.taken 5 w).dropFrozen o = s.taken 5 w :=
    State.dropFrozen_of_none (by rw [State.taken_outputs]; exact frozen)
  have ran : exec (.configureOutput w) s = .next ((((s.taken 5 w).modifyOutput o
      (Output.configured (outputConfigOf w) (fillOf w))).mark (.output o)).settle w.cell .done 0) := by
    refine (State.cellRow_of_ready ready 5 State.configureOutput).trans (congrArg _ ?_)
    refine (State.onQuad_of_target target _ _).trans ((State.judge_of_none
      (State.refuseConfigureOutput_of_accepted idle params geometry overlap) _ _).trans ?_)
    rw [dropped]
  have wrote := State.modifyOutput_quietly (o := o) (g := Output.configured (outputConfigOf w) (fillOf w))
    (State.taken_quietly 5 w notice).2.2 rfl rfl
  have act := State.quietly_trans wrote (State.mark_quietly [.output o] (r := .output o) wrote.2.2
    (.inr (by simp [RecordSel.part])))
  refine ⟨_, ran, State.carried_of_quietly notice act, ?_, ?_⟩
  · rw [(State.settled_of_quietly notice act (by simp)).2.2.2]
    exact State.mark_marked ..
  · rw [State.settle_outputs, State.mark_outputs, State.modifyOutput_outputs, vector_set_self, State.taken_outputs]
    rfl

/-- Settles O11: START_OUTPUT is one write of the output, which shows its state. -/
theorem startOutputWaitsForThePulse : Obligations.StartOutputWaitsForThePulse := by
  intro w o c s ready notice target config stopped loading geometry
  have banks : (s.taken 6 w).banks = s.banks := by simp [State.taken, State.takeCell]
  have accepted : firstRefusal [need ((s.taken 6 w).outputs[o].state = .stopped) .wrongState,
      need (s.taken 6 w).banks[c.bank].loading.isNone .inUse,
      need ((s.taken 6 w).geometryHolds c) .geometry] = none := by
    refine firstRefusal_none fun r m => ?_
    simp only [List.mem_cons, List.not_mem_nil, or_false, State.taken_outputs, State.geometryHolds,
      State.taken_feeds, banks] at m
    rcases m with rfl | rfl | rfl
    · exact need_of_true (decide_eq_true stopped) _
    · exact need_of_true (by rw [loading]; rfl) _
    · exact need_of_true geometry _
  have ran : exec (.startOutput w) s = .next (((s.taken 6 w).beginStarting o c).settle w.cell .done 0) := by
    refine (State.cellRow_of_ready ready 6 State.startOutput).trans (congrArg _ ?_)
    refine (State.onQuad_of_target target _ _).trans ?_
    simp only [State.taken_outputs, config]
    rw [State.taken_outputs] at accepted
    exact State.judge_of_none accepted ..
  have act : (s.taken 6 w).quietly [.output o] [.output o] ((s.taken 6 w).beginStarting o c) :=
    State.modifyOutput_quietly (State.taken_quietly 6 w notice).2.2 rfl rfl
  refine ⟨_, ran, State.carried_of_quietly notice act, ?_,
    (s.outputs[o].modes.table.forState s.feeds[c.feed].cadence.state).getD .convert, ?_, ?_⟩
  · rw [(State.settled_of_quietly notice act (by simp)).2.2.2]
    refine State.putOutput_marked fun same => ?_
    have state := congrArg OutputView.state same
    simp [Output.view, stopped, -Fin.getElem_fin] at state
  · rw [State.settle_outputs, State.beginStarting, State.modifyOutput_outputs, vector_set_self, State.taken_outputs,
      State.taken_feeds]
    rfl
  · cases s.feeds[c.feed].cadence.state <;> rfl

end Sys2Proof.Machine
end

section
/-! What the giving up of an output's contexts makes of it (R59, R84, R136). -/

namespace Sys2Proof.Machine

/-- A held context given up with no new one in its place, on the output (R84). -/
def Output.dropHeld (p : Parity) (x : Output) : Output :=
  match x.ctx.held p with
  | none => x
  | some y => Output.giveWay (some y) { x with ctx := x.ctx.setHeld p none }

theorem State.dropHeld_outputs (o : OutId) (p : Parity) (s : State) :
    (s.dropHeld o p).outputs = s.outputs.set o (s.outputs[o].dropHeld p) := by
  unfold State.dropHeld Output.dropHeld
  cases s.outputs[o].ctx.held p with
  | none => exact (vector_set_same _ o).symm
  | some y => simp only [State.retire_outputs, State.modifyContexts_outputs, vector_set_self, Vector.set_set]

/-- The retired context after the one held for `p` has been given up: that one where a build uses it (R76). -/
def Contexts.retiring (k : Contexts) (p : Parity) (before : Option Context) : Option Context :=
  match k.held p with
  | none => before
  | some y => if y.uses = 0 then before else some y

/-- A given-up context leaves its place, the retired context and the buffers changed. -/
theorem Output.dropHeld_eq (p : Parity) (x : Output) :
    x.dropHeld p =
      { x with
        ctx := { x.ctx.setHeld p none with retired := x.ctx.retiring p x.ctx.retired }
        builder := { x.builder with buffers := (x.dropHeld p).builder.buffers } } := by
  unfold Output.dropHeld Contexts.retiring
  cases held : x.ctx.held p with
  | none =>
    have gone : x.ctx.setHeld p none = x.ctx := by rw [← held]; cases p <;> rfl
    simp only [gone]
  | some y => cases p <;> rfl

theorem LineBuffer.invalidate_invalidate (x : LineBuffer) : x.invalidate.invalidate = x.invalidate := by
  obtain ⟨state, line, context, stale, bytes⟩ := x
  cases state <;> rfl

/-- Invalidating all the buffers makes up for those of one context (R114). -/
theorem LineBuilder.invalidateAll_invalidateFor (id : BitVec 16) (b : LineBuilder) :
    (b.invalidateFor id).invalidateAll = b.invalidateAll := by
  have both : ∀ x : LineBuffer,
      (if x.context = some id then x.invalidate else x).invalidate = x.invalidate := fun x => by
    split
    · exact x.invalidate_invalidate
    · rfl
  simp only [LineBuilder.invalidateFor, LineBuilder.invalidateAll, Vector.map_map, Function.comp_def, both]

theorem Output.dropHeld_invalidateAll (p : Parity) (x : Output) :
    (x.dropHeld p).builder.invalidateAll = x.builder.invalidateAll := by
  unfold Output.dropHeld
  cases x.ctx.held p with
  | none => rfl
  | some y => exact LineBuilder.invalidateAll_invalidateFor ..

/-- The contexts of an output given up, on the output (R84, R136). -/
def Output.givenUp (x : Output) : Output :=
  let y := ((x.dropHeld .whole).dropHeld .top).dropHeld .bottom
  { y with ctx := { y.ctx with frozen := none, decision := none } }

/-- The retired context of an output that has given up its contexts. -/
def Contexts.retiredAfter (k : Contexts) : Option Context :=
  k.retiring .bottom (k.retiring .top (k.retiring .whole k.retired))

theorem Output.givenUp_eq (x : Output) :
    x.givenUp =
      { x with
        ctx :=
          { x.ctx with
            heldWhole := none, heldTop := none, heldBottom := none, frozen := none, decision := none
            retired := x.ctx.retiredAfter }
        builder := { x.builder with buffers := x.givenUp.builder.buffers } } := by
  unfold Output.givenUp
  rw [Output.dropHeld_eq .bottom, Output.dropHeld_eq .top, Output.dropHeld_eq .whole]
  rfl

theorem Output.givenUp_invalidateAll (x : Output) :
    x.givenUp.builder.invalidateAll = x.builder.invalidateAll := by
  unfold Output.givenUp
  simp only [Output.dropHeld_invalidateAll]

theorem State.dropFrozen_outputs (o : OutId) (s : State) : (s.dropFrozen o).outputs =
    s.outputs.set o { s.outputs[o] with ctx := { s.outputs[o].ctx with frozen := none } } := by
  unfold State.dropFrozen
  split
  · next none_ =>
    rw [← none_]
    exact (vector_set_same _ o).symm
  · rw [State.modifyContexts_outputs, State.unpin_outputs]

theorem State.giveUpContexts_outputs (o : OutId) (s : State) :
    (s.giveUpContexts o).outputs = s.outputs.set o s.outputs[o].givenUp := by
  simp only [State.giveUpContexts, State.modifyContexts_outputs, State.dropFrozen_outputs, State.dropHeld_outputs,
    vector_set_self, Vector.set_set, Output.givenUp]

/-! ### The pins -/

/-- A held context given up takes its pins back, but for one that a build uses (R76). -/
theorem State.dropHeld_repins (o : OutId) (p : Parity) (s : State) :
    s.Repins (fun f n k => k - pinsOf f n [(s.outputs[o].ctx.held p).filter fun y => y.uses = 0])
      (s.dropHeld o p) := by
  unfold State.dropHeld
  cases s.outputs[o].ctx.held p with
  | none => exact (State.Repins.of_feeds rfl).congr fun f n k => by simp
  | some y =>
    have gone : s.Repins (fun _ _ k => k) (s.modifyContexts o fun c => c.setHeld p none) :=
      State.Repins.of_feeds (State.modifyContexts_feeds ..)
    exact gone.trans (State.retire_repins o y _)

theorem State.dropFrozen_repins (o : OutId) (s : State) :
    s.Repins (fun f n k => k - pinsOf f n [s.outputs[o].ctx.frozen]) (s.dropFrozen o) := by
  unfold State.dropFrozen
  cases s.outputs[o].ctx.frozen with
  | none => exact (State.Repins.of_feeds rfl).congr fun f n k => by simp
  | some y =>
    refine ((State.unpin_repins y s).feeds_eq (State.modifyContexts_feeds ..)).congr fun f n k => ?_
    simp

theorem Output.dropHeld_held {p q : Parity} (other : q ≠ p) (x : Output) :
    (x.dropHeld p).ctx.held q = x.ctx.held q := by
  rw [Output.dropHeld_eq]
  exact Contexts.held_setHeld_other other x.ctx none

theorem Output.dropHeld_frozen (p : Parity) (x : Output) : (x.dropHeld p).ctx.frozen = x.ctx.frozen := by
  rw [Output.dropHeld_eq]
  exact Contexts.setHeld_frozen ..

theorem pinsOf_cons (f : FeedId) (n : SampleNo) (x y : Option Context) (xs : List (Option Context)) :
    pinsOf f n (x :: y :: xs) = pinsOf f n [x] + pinsOf f n (y :: xs) := by simp [pinsOf]

/-- The pins that an output gives up: of its frozen context and of the held ones that no build uses (R84, R136). -/
theorem State.giveUpContexts_repins (o : OutId) (s : State) :
    s.Repins (fun f n k => k - pinsOf f n (s.outputs[o].ctx.frozen :: s.outputs[o].ctx.unused))
      (s.giveUpContexts o) := by
  have whole := s.dropHeld_repins o .whole
  have top := (s.dropHeld o .whole).dropHeld_repins o .top
  have bottom := ((s.dropHeld o .whole).dropHeld o .top).dropHeld_repins o .bottom
  have frozen := (((s.dropHeld o .whole).dropHeld o .top).dropHeld o .bottom).dropFrozen_repins o
  simp only [State.dropHeld_outputs, vector_set_self, Output.dropHeld_frozen,
    Output.dropHeld_held (p := .whole) (q := .top) (by simp),
    Output.dropHeld_held (p := .whole) (q := .bottom) (by simp),
    Output.dropHeld_held (p := .top) (q := .bottom) (by simp)] at top bottom frozen
  refine ((((whole.trans top).trans bottom).trans frozen).feeds_eq (State.modifyContexts_feeds ..)).congr
    fun f n k => ?_
  simp only [Contexts.unused, Contexts.held, List.map_cons, List.map_nil, pinsOf_cons]
  omega

/-! ### The frame -/

/-- The pieces that the giving up of an output's contexts changes. -/
def givingUp (o : OutId) : List Part := .output o :: feedParts

section quietly
variable {o : OutId} {s : State} (holds : s.noticeHolds)
include holds

theorem State.modifyContexts_givingUp (g : Contexts → Contexts) :
    s.quietly (givingUp o) [.output o] (s.modifyContexts o g) :=
  State.quietly_mono (State.modifyOutput_quietly (g := fun x => { x with ctx := g x.ctx }) holds rfl rfl)
    (by simp [givingUp]) (by simp)

theorem State.modifyBuilder_givingUp (g : LineBuilder → LineBuilder) :
    s.quietly (givingUp o) [.output o] (s.modifyBuilder o g) :=
  State.quietly_mono (State.modifyOutput_quietly (g := fun x => { x with builder := g x.builder }) holds rfl rfl)
    (by simp [givingUp]) (by simp)

theorem State.unpin_givingUp (x : Context) : s.quietly (givingUp o) [.output o] (s.unpin x) :=
  State.quietly_mono (State.unpin_quietly x holds) (by simp [givingUp, feedParts]) (by simp)

theorem State.retire_givingUp (y : Context) : s.quietly (givingUp o) [.output o] (s.retire o y) := by
  have first : s.quietly (givingUp o) [.output o] (s.modifyBuilder o (LineBuilder.invalidateFor y.id)) :=
    State.quietly_mono (State.modifyOutput_quietly
      (g := fun x => { x with builder := x.builder.invalidateFor y.id }) holds rfl rfl) (by simp [givingUp]) (by simp)
  unfold State.retire
  simp only
  split
  · exact State.quietly_trans first (State.unpin_givingUp first.2.2 y)
  · exact State.quietly_trans first (State.modifyContexts_givingUp first.2.2 _)

theorem State.dropHeld_givingUp (p : Parity) : s.quietly (givingUp o) [.output o] (s.dropHeld o p) := by
  unfold State.dropHeld
  split
  · exact State.quietly_refl _ _ holds
  · have first := State.modifyContexts_givingUp (o := o) holds fun c => c.setHeld p none
    exact State.quietly_trans first (State.retire_givingUp first.2.2 _)

theorem State.dropFrozen_givingUp : s.quietly (givingUp o) [.output o] (s.dropFrozen o) := by
  unfold State.dropFrozen
  split
  · exact State.quietly_refl _ _ holds
  · next y _ =>
    have first := State.unpin_givingUp (o := o) holds y
    exact State.quietly_trans first (State.modifyContexts_givingUp first.2.2 _)

theorem State.giveUpContexts_givingUp : s.quietly (givingUp o) [.output o] (s.giveUpContexts o) := by
  have whole := State.dropHeld_givingUp (o := o) holds .whole
  have top := State.quietly_trans whole (State.dropHeld_givingUp (o := o) whole.2.2 .top)
  have bottom := State.quietly_trans top (State.dropHeld_givingUp (o := o) top.2.2 .bottom)
  have frozen := State.quietly_trans bottom (State.dropFrozen_givingUp (o := o) bottom.2.2)
  exact State.quietly_trans frozen (State.modifyContexts_givingUp frozen.2.2 _)

end quietly

end Sys2Proof.Machine
end

section
/-! The waiting reads of an output that is not RUNNING are answered at once, with the fill colour (R108, R109, R119). -/

namespace Sys2Proof.Machine

/-! ### The head beat out of RUNNING -/

theorem fillByte_eq_colourByte (k : Colour) (b : Nat) : fillByte k b = colourByte k b := by
  have colour : colourByte k b = BitVec.ofNat 8 (k.at (b / 2) % 1024 / 256 ^ (b % 2)) := rfl
  rw [colour, fillByte]
  rcases Nat.mod_two_eq_zero_or_one b with low | high
  · simp [low, container, leBytes]
  · simp [high, container, leBytes]

theorem OutputConfig.beat_eq_windowBytes (c : OutputConfig) (x n : Nat) (pic : Nat → Byte) :
    c.beat x n pic = windowBytes c pic x n := by
  simp [OutputConfig.beat, windowBytes]

/-- A beat that begins outside the picture holds zeros (R109). -/
theorem windowBytes_outside {c : OutputConfig} {x : Nat}
    (outside : c.lines ≤ x / c.stride ∨ 4 * c.width ≤ x - x / c.stride * c.stride) (n : Nat) (pic : Nat → Byte) :
    windowBytes c pic x n = List.replicate n 0 := by
  refine List.eq_replicate_iff.2 ⟨by simp [windowBytes], fun b m => ?_⟩
  obtain ⟨j, -, rfl⟩ := List.mem_map.1 m
  dsimp only
  rw [if_neg]
  rintro ⟨line, place⟩
  omega

/-- The bytes of beat `i` of a queued read, answered with the fill colour. -/
def QueuedRead.filled (c : OutputConfig) (fill : Colour) (q : QueuedRead) (i : Nat) : List Byte :=
  windowBytes c (colourByte fill) (q.start i) (q.bytes i)

theorem Output.headCase_of_stopped {x : Output} {c : OutputConfig} (config : x.config = some c)
    (stopped : x.state ≠ .running) (q : QueuedRead) :
    x.headCase q = .answer (q.filled c x.modes.fill q.done) none := by
  have pic : fillByte x.modes.fill = colourByte x.modes.fill := funext (fillByte_eq_colourByte _)
  simp only [Output.headCase, config, OutputConfig.beat_eq_windowBytes, pic, if_pos stopped, QueuedRead.filled]
  split
  · next outside =>
    rw [windowBytes_outside (by simpa using outside)]
  · rfl

/-! ### Answering the whole queue -/

/-- What the answers to all the beats of a queued read make of an accepted read: the beats of its transaction joined
to it, and it is ready (R108, R159). -/
def QueuedRead.answer (c : OutputConfig) (fill : Colour) (q : QueuedRead) (x : ReadTxn) : ReadTxn :=
  if x.serial = q.serial then
    { x with
      beats := x.beats ++ (List.range (max 1 (q.len - q.done))).map fun i => ⟨.okay, q.filled c fill (q.done + i)⟩
      ready := true }
  else x

/-- What the answers to a whole read queue make of an accepted read. -/
def drained (c : OutputConfig) (fill : Colour) (qs : List QueuedRead) (x : ReadTxn) : ReadTxn :=
  qs.foldl (fun x q => q.answer c fill x) x

/-- A read whose last beat is the next one is answered by that beat. -/
theorem QueuedRead.answer_of_last {q : QueuedRead} (last : q.len ≤ q.done + 1) (c : OutputConfig) (fill : Colour)
    (x : ReadTxn) : q.answer c fill x =
      if x.serial = q.serial then
        { x with beats := x.beats ++ [⟨.okay, q.filled c fill q.done⟩], ready := true }
      else x := by
  have one : max 1 (q.len - q.done) = 1 := by omega
  simp [QueuedRead.answer, one]

/-- A read with more beats is answered by the next one and then by the others. -/
theorem QueuedRead.answer_of_more {q : QueuedRead} (more : q.done + 1 < q.len) (c : OutputConfig) (fill : Colour)
    (x : ReadTxn) : q.answer c fill x =
      QueuedRead.answer c fill { q with done := q.done + 1 }
        (if x.serial = q.serial then
          { x with beats := x.beats ++ [⟨.okay, q.filled c fill q.done⟩], ready := false }
        else x) := by
  obtain ⟨k, count⟩ : ∃ k, q.len - q.done = k + 2 := ⟨q.len - q.done - 2, by omega⟩
  have now : max 1 (q.len - q.done) = k + 1 + 1 := by omega
  have later : max 1 (q.len - (q.done + 1)) = k + 1 := by omega
  unfold QueuedRead.answer
  by_cases own : x.serial = q.serial
  · simp only [own, if_true, now, later, List.range_succ_eq_map (n := k + 1), List.map_cons, List.map_map,
      Nat.add_zero, List.append_assoc, List.cons_append, List.nil_append, Function.comp_def]
    simp only [Nat.succ_eq_add_one, Nat.add_assoc, Nat.add_comm 1]
    rfl
  · simp [own]

/-- What is left of a read queue when its head beat has been answered. -/
def QueuedRead.behind (q : QueuedRead) (qs : List QueuedRead) : List QueuedRead :=
  if q.len ≤ q.done + 1 then qs else { q with done := q.done + 1 } :: qs

/-- What the answer to the head beat makes of an accepted read. -/
def QueuedRead.beat (c : OutputConfig) (fill : Colour) (q : QueuedRead) (x : ReadTxn) : ReadTxn :=
  if x.serial = q.serial then
    { x with beats := x.beats ++ [⟨.okay, q.filled c fill q.done⟩], ready := decide (q.len ≤ q.done + 1) }
  else x

theorem drained_cons (c : OutputConfig) (fill : Colour) (q : QueuedRead) (qs : List QueuedRead) (x : ReadTxn) :
    drained c fill (q :: qs) x = drained c fill (q.behind qs) (q.beat c fill x) := by
  by_cases last : q.len ≤ q.done + 1
  · simp only [drained, List.foldl_cons, QueuedRead.answer_of_last last, QueuedRead.behind, QueuedRead.beat,
      if_pos last, decide_eq_true last]
  · simp only [drained, List.foldl_cons, QueuedRead.answer_of_more (Nat.lt_of_not_le last), QueuedRead.behind,
      QueuedRead.beat, if_neg last, decide_eq_false last]

theorem beatsLeft_behind (q : QueuedRead) (qs : List QueuedRead) :
    beatsLeft (q.behind qs) < beatsLeft (q :: qs) := by
  unfold QueuedRead.behind
  split <;> simp only [beatsLeft, List.map_cons, List.sum_cons] <;> omega

section serve
variable {o : OutId} {c : OutputConfig}

/-- The head beat answered: its transaction's beat, and the rest of the queue. -/
theorem State.answerHead_cons {s : State} {q : QueuedRead} {qs : List QueuedRead}
    (queue : s.outputs[o].builder.queue = q :: qs) (fill : Colour) :
    s.answerHead o (q.filled c fill q.done) none =
      State.modifyBuilder o (fun b => { b with queue := q.behind qs })
        { s with reads := s.reads.map (q.beat c fill) } := by
  have rest : (fun b : LineBuilder =>
      { b with
        queue := if decide (q.len ≤ q.done + 1) = true then qs else { q with done := q.done + 1 } :: qs
        lastTouched := (none : Option (Fin 2)).or b.lastTouched }) =
      fun b => { b with queue := q.behind qs } := by
    funext b
    simp [QueuedRead.behind]
  simp only [State.answerHead, queue]
  exact congrArg (fun g => State.modifyBuilder o g { s with reads := s.reads.map (q.beat c fill) }) rest

theorem State.serve_cons {n : Nat} {s : State} {q : QueuedRead} {qs : List QueuedRead}
    (config : s.outputs[o].config = some c) (stopped : s.outputs[o].state ≠ .running)
    (idle : s.outputs[o].builder.run = none) (queue : s.outputs[o].builder.queue = q :: qs) :
    State.serve (n + 1) o s = State.serve n o (State.modifyBuilder o (fun b => { b with queue := q.behind qs })
      { s with reads := s.reads.map (q.beat c s.outputs[o].modes.fill) }) := by
  rw [← State.answerHead_cons queue]
  simp only [State.serve, queue, idle, Option.isSome_none, Bool.false_eq_true, if_false,
    Output.headCase_of_stopped config stopped]

/-- Every beat of the queue of an output that is not RUNNING is answered (R108, R119). -/
theorem State.serve_of_stopped : ∀ (n : Nat) (s : State), s.noticeHolds → s.outputs[o].config = some c →
    s.outputs[o].state ≠ .running → s.outputs[o].builder.run = none →
    beatsLeft s.outputs[o].builder.queue < n →
    s.quietly [.output o, .reads] [.output o] (State.serve n o s) ∧
      (State.serve n o s).outputs = s.outputs.set o
        { s.outputs[o] with builder := { s.outputs[o].builder with queue := [] } } ∧
      (State.serve n o s).reads =
        s.reads.map (drained c s.outputs[o].modes.fill s.outputs[o].builder.queue)
  | 0, _, _, _, _, _, fuel => absurd fuel (Nat.not_lt_zero _)
  | n + 1, s, holds, config, stopped, idle, fuel => by
    cases queue : s.outputs[o].builder.queue with
    | nil =>
      have still : State.serve (n + 1) o s = s := by simp only [State.serve, queue]
      rw [still]
      refine ⟨State.quietly_refl _ _ holds, ?_, (List.map_id s.reads).symm⟩
      rw [← queue]
      exact (vector_set_same _ o).symm
    | cons q qs =>
      rw [State.serve_cons config stopped idle queue]
      have read : s.quietly [.output o, .reads] [.output o]
          { s with reads := s.reads.map (q.beat c s.outputs[o].modes.fill) } := by
        refine State.quietly_of_eq _ holds (fun p named => ?_) rfl rfl rfl rfl rfl
        cases p <;> simp_all [State.same, State.ref]
      have left : State.quietly [.output o, .reads] [.output o]
          { s with reads := s.reads.map (q.beat c s.outputs[o].modes.fill) }
          (State.modifyBuilder o (fun b => { b with queue := q.behind qs })
            { s with reads := s.reads.map (q.beat c s.outputs[o].modes.fill) }) :=
        State.quietly_mono (State.modifyOutput_quietly
          (g := fun x => { x with builder := { x.builder with queue := q.behind qs } }) read.2.2 rfl rfl)
          (by simp) (by simp)
      generalize next : State.modifyBuilder o (fun b => { b with queue := q.behind qs })
        { s with reads := s.reads.map (q.beat c s.outputs[o].modes.fill) } = t at left
      have outputs : t.outputs = s.outputs.set o
          { s.outputs[o] with builder := { s.outputs[o].builder with queue := q.behind qs } } := by
        rw [← next, State.modifyBuilder_outputs]
      have own : t.outputs[o] =
          { s.outputs[o] with builder := { s.outputs[o].builder with queue := q.behind qs } } := by
        rw [outputs, vector_set_self]
      have reads : t.reads = s.reads.map (q.beat c s.outputs[o].modes.fill) := by
        rw [← next, State.modifyBuilder_reads]
      have shorter : beatsLeft t.outputs[o].builder.queue < n := by
        have := beatsLeft_behind q qs
        rw [queue] at fuel
        rw [own]
        exact Nat.lt_of_lt_of_le this (Nat.le_of_lt_succ fuel)
      obtain ⟨quiet, drains, answered⟩ := State.serve_of_stopped n t left.2.2 (by rw [own]; exact config)
        (by rw [own]; exact stopped) (by rw [own]; exact idle) shorter
      refine ⟨State.quietly_trans read (State.quietly_trans left quiet), ?_, ?_⟩
      · rw [drains, own, outputs, Vector.set_set]
      · rw [answered, own, reads, List.map_map]
        exact List.map_congr_left fun x _ => (drained_cons ..).symm

/-- The waiting reads of an output that is not RUNNING are all answered, but for those behind a slate run in flight
(R108, R119). -/
theorem State.takeHead_of_stopped {s : State} (holds : s.noticeHolds) (config : s.outputs[o].config = some c)
    (stopped : s.outputs[o].state ≠ .running) (idle : s.outputs[o].builder.run = none) :
    s.quietly [.output o, .reads] [.output o] (s.takeHead o) ∧
      (s.takeHead o).outputs = s.outputs.set o
        { s.outputs[o] with builder := { s.outputs[o].builder with queue := [] } } ∧
      (s.takeHead o).reads = s.reads.map (drained c s.outputs[o].modes.fill s.outputs[o].builder.queue) :=
  State.serve_of_stopped _ s holds config stopped idle (Nat.lt_succ_self _)

theorem State.takeHead_of_run {s : State} (flight : s.outputs[o].builder.run.isSome = true) : s.takeHead o = s := by
  simp only [State.takeHead, State.serve]
  split
  · rfl
  · rw [if_pos flight]

end serve

/-! ### The accepted reads, one by one -/

theorem drained_of_not_named {c : OutputConfig} {fill : Colour} {qs : List QueuedRead} {x : ReadTxn}
    (apart : ∀ q ∈ qs, q.serial ≠ x.serial) : drained c fill qs x = x := by
  induction qs with
  | nil => rfl
  | cons q qs ih =>
    obtain ⟨other, rest⟩ := List.forall_mem_cons.1 apart
    have kept : q.answer c fill x = x := if_neg (Ne.symm other)
    rw [drained, List.foldl_cons, kept]
    exact ih rest

theorem QueuedRead.answer_serial (c : OutputConfig) (fill : Colour) (q : QueuedRead) (x : ReadTxn) :
    (q.answer c fill x).serial = x.serial := by
  unfold QueuedRead.answer
  split <;> rfl

/-- An accepted read with one queued burst receives that burst's beats and is ready. -/
theorem drained_of_one {c : OutputConfig} {fill : Colour} {qs : List QueuedRead} {x : ReadTxn} {q : QueuedRead}
    (one : qs.filter (fun r => r.serial = x.serial) = [q]) : drained c fill qs x = q.answer c fill x := by
  induction qs with
  | nil => simp at one
  | cons r qs ih =>
    by_cases own : r.serial = x.serial
    · rw [List.filter_cons_of_pos (by simpa using own)] at one
      obtain ⟨rfl, rest⟩ := List.cons_eq_cons.1 one
      rw [drained, List.foldl_cons]
      refine drained_of_not_named fun p m => ?_
      rw [QueuedRead.answer_serial]
      simpa using List.filter_eq_nil_iff.1 rest p m
    · rw [List.filter_cons_of_neg (by simpa using own)] at one
      have kept : r.answer c fill x = x := if_neg (Ne.symm own)
      rw [drained, List.foldl_cons, kept]
      exact ih one

end Sys2Proof.Machine
end

section
/-! STOP_OUTPUT (R59, R84, R119, R142, R178). -/

namespace Sys2Proof.Machine

/-! ### The retired context -/

theorem Contexts.retiring_of_unused {k : Contexts} {p : Parity} (unused : ∀ y, k.held p = some y → y.uses = 0)
    (before : Option Context) : k.retiring p before = before := by
  unfold Contexts.retiring
  cases held : k.held p with
  | none => rfl
  | some y => exact if_pos (unused y held)

theorem Contexts.retiring_of_used {k : Contexts} {p : Parity} {y : Context} (held : k.held p = some y)
    (used : y.uses ≠ 0) (before : Option Context) : k.retiring p before = some y := by
  simp only [Contexts.retiring, held, if_neg used]

theorem Contexts.retiredAfter_of_unused {k : Contexts} (unused : ∀ p y, k.held p = some y → y.uses = 0) :
    k.retiredAfter = k.retired := by
  simp only [Contexts.retiredAfter, Contexts.retiring_of_unused (unused _)]

theorem Contexts.retiredAfter_of_used {k : Contexts} {p : Parity} {y : Context} (held : k.held p = some y)
    (used : y.uses ≠ 0) (others : ∀ q x, q ≠ p → k.held q = some x → x.uses = 0) : k.retiredAfter = some y := by
  have other (q : Parity) (apart : q ≠ p) (before : Option Context) : k.retiring q before = before :=
    Contexts.retiring_of_unused (fun x e => others q x apart e) before
  unfold Contexts.retiredAfter
  cases p with
  | whole => rw [other .bottom (by simp), other .top (by simp), Contexts.retiring_of_used held used]
  | top => rw [other .bottom (by simp), Contexts.retiring_of_used held used]
  | bottom => rw [Contexts.retiring_of_used held used]

/-! ### Stopped from RUNNING, up to the answers to the waiting reads -/

/-- An output stopped from RUNNING, its reads not yet answered (R59, R84, R119, R142). -/
def Output.halted (x : Output) : Output :=
  { x with
    state := .stopped, gen := Generator.idle, modes := x.modes.stopped
    ctx :=
      { x.ctx with
        heldWhole := none, heldTop := none, heldBottom := none, frozen := none, decision := none
        retired := x.ctx.retiredAfter }
    builder := x.builder.invalidateAll }

/-- An output made STOPPED from RUNNING that still has its contexts and buffers (R59, R142). -/
def Output.stilled (x : Output) : Output :=
  { x with state := .stopped, gen := Generator.idle, modes := x.modes.stopped }

/-- The state of a STOP_OUTPUT from RUNNING before the waiting reads are answered. -/
def State.halt (o : OutId) (s : State) : State :=
  ((s.modifyOutput o Output.stilled).giveUpContexts o).modifyBuilder o LineBuilder.invalidateAll

theorem State.stopRunning_eq (o : OutId) (s : State) : s.stopRunning o = ((s.halt o).takeHead o).flush := rfl

theorem State.halt_outputs (o : OutId) (s : State) : (s.halt o).outputs = s.outputs.set o s.outputs[o].halted := by
  have halted (x : Output) :
      { Output.givenUp x with builder := (Output.givenUp x).builder.invalidateAll } =
        { x with
          ctx :=
            { x.ctx with
              heldWhole := none, heldTop := none, heldBottom := none, frozen := none, decision := none
              retired := x.ctx.retiredAfter }
          builder := x.builder.invalidateAll } := by
    rw [Output.givenUp_invalidateAll, Output.givenUp_eq]
  simp only [State.halt, State.modifyBuilder_outputs, State.giveUpContexts_outputs, State.modifyOutput_outputs,
    vector_set_self, Vector.set_set, halted]
  rfl

theorem State.halt_repins (o : OutId) (s : State) :
    s.Repins (fun f n k => k - pinsOf f n (s.outputs[o].ctx.frozen :: s.outputs[o].ctx.unused)) (s.halt o) := by
  have first : s.Repins (fun _ _ k => k) (s.modifyOutput o Output.stilled) :=
    State.Repins.of_feeds (State.modifyOutput_feeds ..)
  refine ((first.trans (State.giveUpContexts_repins o _)).feeds_eq (State.modifyBuilder_feeds ..)).congr fun f n k => ?_
  rw [State.modifyOutput_outputs, vector_set_self]
  rfl

section halt
variable {o : OutId} {s : State} (holds : s.noticeHolds)
include holds

theorem State.stilled_givingUp : s.quietly (givingUp o) [.output o] (s.modifyOutput o Output.stilled) :=
  State.quietly_mono (State.modifyOutput_quietly (g := Output.stilled) holds rfl rfl) (by simp [givingUp]) (by simp)

/-- After the first write of the output, what is left of the STOP_OUTPUT. -/
theorem State.halt_of_stilled :
    (s.modifyOutput o Output.stilled).quietly (givingUp o) [.output o] (s.halt o) := by
  have given := State.giveUpContexts_givingUp (o := o) (State.stilled_givingUp (o := o) holds).2.2
  exact State.quietly_trans given (State.modifyBuilder_givingUp given.2.2 _)

theorem State.halt_quietly : s.quietly (givingUp o) [.output o] (s.halt o) :=
  State.quietly_trans (State.stilled_givingUp holds) (State.halt_of_stilled holds)

theorem State.halt_marked (running : s.outputs[o].state = .running) : (s.halt o).marked (.output o) := by
  refine State.mem_of_onlyMarks (State.halt_of_stilled holds).2.1 (State.putOutput_marked fun same => ?_)
  have state := congrArg OutputView.state same
  simp [Output.view, Output.stilled, running, -Fin.getElem_fin] at state

end halt

theorem State.flush_quietly {s : State} (holds : s.noticeHolds) :
    s.quietly [.reads, .writes, .busOut] [] s.flush :=
  State.quietly_of_eq [] holds s.flush_changesOnly rfl rfl rfl rfl rfl

/-! ### The waiting reads -/

/-- Whether a slate run holds them back or not, what the answers leave of the output. -/
theorem State.halt_takeHead {s : State} (holds : s.noticeHolds) {o : OutId} {c : OutputConfig}
    (config : s.outputs[o].config = some c) :
    (s.halt o).quietly [.output o, .reads] [.output o] ((s.halt o).takeHead o) ∧
      ((s.halt o).takeHead o).outputs = s.outputs.set o
        { s.outputs[o].halted with
          builder :=
            { s.outputs[o].halted.builder with
              queue := if s.outputs[o].builder.run = none then [] else s.outputs[o].builder.queue } } ∧
      (s.outputs[o].builder.run = none → ((s.halt o).takeHead o).reads =
        s.reads.map (drained c s.outputs[o].modes.fill s.outputs[o].builder.queue)) := by
  have quiet := State.halt_quietly (o := o) holds
  have own : (s.halt o).outputs[o] = s.outputs[o].halted := by rw [State.halt_outputs, vector_set_self]
  have reads : (s.halt o).reads = s.reads := quiet.1 .reads (by simp [givingUp, feedParts])
  cases run : s.outputs[o].builder.run with
  | none =>
    obtain ⟨frame, outputs, answered⟩ := State.takeHead_of_stopped quiet.2.2 (o := o) (c := c)
      (by rw [own]; exact config) (by rw [own]; simp [Output.halted]) (by rw [own]; exact run)
    refine ⟨frame, ?_, fun _ => ?_⟩
    · rw [outputs, own, State.halt_outputs, Vector.set_set, if_pos rfl]
    · rw [answered, own, reads]
      rfl
  | some r =>
    have still : (s.halt o).takeHead o = s.halt o := State.takeHead_of_run (by rw [own]; exact run ▸ rfl)
    rw [still]
    refine ⟨State.quietly_refl _ _ quiet.2.2, ?_, fun h => by simp at h⟩
    rw [State.halt_outputs, if_neg (by simp)]
    rfl

/-! ### STOP_OUTPUT -/

/-- An output that has been stopped, its waiting reads answered where it was RUNNING (R59, R119). -/
def Output.ended (x : Output) : Output :=
  { x with
    state := .stopped, modes := x.modes.stopped
    gen := if x.state = .running then Generator.idle else x.gen
    ctx :=
      { x.ctx with
        heldWhole := none, heldTop := none, heldBottom := none, frozen := none, decision := none
        retired := x.ctx.retiredAfter }
    builder :=
      if x.state = .running then
        { x.builder.invalidateAll with queue := if x.builder.run = none then [] else x.builder.queue }
      else x.builder }

/-- The pieces that STOP_OUTPUT changes besides its own write and cell. -/
def stopParts (o : OutId) : List Part := givingUp o ++ [.reads, .writes, .busOut]

/-- No context held, frozen or waited for, written out. -/
theorem Contexts.eq_of_empty {k : Contexts} (whole : k.heldWhole = none) (top : k.heldTop = none)
    (bottom : k.heldBottom = none) (frozen : k.frozen = none) (decision : k.decision = none) :
    k = { k with heldWhole := none, heldTop := none, heldBottom := none, frozen := none, decision := none } := by
  cases k
  simp_all

/-- What STOP_OUTPUT makes of a live output and of the feeds. -/
structure State.Stops (o : OutId) (s t : State) : Prop where
  quiet : s.quietly (stopParts o) [.output o] t
  marked : t.marked (.output o)
  outputs : t.outputs = s.outputs.set o s.outputs[o].ended
  pins : s.Repins (fun f n k => k - pinsOf f n (s.outputs[o].ctx.frozen :: s.outputs[o].ctx.unused)) t

section stop
variable {o : OutId} {s : State} (notice : s.noticeHolds)
include notice

theorem State.stopRunning_stops {c : OutputConfig} (config : s.outputs[o].config = some c)
    (running : s.outputs[o].state = .running) : s.Stops o (s.stopRunning o) := by
  have halted := State.halt_quietly (o := o) notice
  obtain ⟨answered, outputs, -⟩ := State.halt_takeHead notice config
  have flushed := State.flush_quietly answered.2.2
  have after : (s.halt o).quietly [.output o, .reads, .writes, .busOut] [.output o] (s.stopRunning o) :=
    State.quietly_trans (State.quietly_mono answered (by simp) (by simp))
      (State.quietly_mono flushed (by simp) (by simp))
  refine ⟨State.quietly_trans (State.quietly_mono halted (by simp [stopParts]) (by simp))
    (State.quietly_mono after (by simp [stopParts, givingUp]) (by simp)), ?_, ?_, ?_⟩
  · exact State.mem_of_onlyMarks after.2.1 (State.halt_marked notice running)
  · rw [State.stopRunning_eq, State.flush_outputs, outputs]
    simp only [Output.ended, if_pos running, Output.halted]
  · intro f
    have kept : (s.stopRunning o).feeds[f] = (s.halt o).feeds[f] := after.1 (.feed f) (by simp)
    rw [kept]
    exact State.halt_repins o s f

theorem State.stopStarting_stops (holds : s.outputs[o].Holds) (starting : s.outputs[o].state = .starting) :
    s.Stops o (s.stopStarting o) := by
  have idle : s.outputs[o].state ≠ .running := by rw [starting]; simp
  have wrote : s.quietly [.output o] [.output o] (s.stopStarting o) :=
    State.modifyOutput_quietly (g := fun x => { x with state := .stopped, modes := x.modes.stopped }) notice rfl rfl
  have unheld (p : Parity) : s.outputs[o].ctx.held p = none := holds.held_none idle p
  refine ⟨State.quietly_mono wrote (by simp [stopParts, givingUp]) (by simp), ?_, ?_, ?_⟩
  · refine State.putOutput_marked fun same => ?_
    have state := congrArg OutputView.state same
    simp [Output.view, starting, -Fin.getElem_fin] at state
  · rw [State.stopStarting, State.modifyOutput_outputs]
    have kept : s.outputs[o].ctx.retiredAfter = s.outputs[o].ctx.retired :=
      Contexts.retiredAfter_of_unused fun p y e => by simp [unheld p, -Fin.getElem_fin] at e
    obtain ⟨whole, top, bottom, frozen, decision⟩ := holds.contexts idle
    simp only [Output.ended, if_neg idle, kept, ← Contexts.eq_of_empty whole top bottom frozen decision]
  · obtain ⟨whole, top, bottom, frozen, -⟩ := holds.contexts idle
    refine (State.Repins.of_feeds (State.modifyOutput_feeds ..)).congr fun f n k => ?_
    simp [Contexts.unused, whole, top, bottom, frozen, pinsOf, -Fin.getElem_fin]

/-- The state before the answered reads go up the Bus Port. -/
theorem State.stopRunning_reads {c : OutputConfig} (config : s.outputs[o].config = some c)
    (idle : s.outputs[o].builder.run = none) :
    ∃ u : State, s.stopRunning o = u.flush ∧ u.busOut = s.busOut ∧ u.writes = s.writes ∧
      u.reads = s.reads.map (drained c s.outputs[o].modes.fill s.outputs[o].builder.queue) := by
  obtain ⟨answered, -, reads⟩ := State.halt_takeHead notice config
  have halted := (State.halt_quietly (o := o) notice).1
  refine ⟨(s.halt o).takeHead o, rfl, ?_, ?_, reads idle⟩
  · exact (answered.1 .busOut (by simp)).trans (halted .busOut (by simp [givingUp, feedParts]))
  · exact (answered.1 .writes (by simp)).trans (halted .writes (by simp [givingUp, feedParts]))

end stop

/-- The one queued burst of an accepted read is answered to its end (R108, R119). -/
theorem drained_of_waiting {c : OutputConfig} {fill : Colour} {qs : List QueuedRead} {x : ReadTxn} {q : QueuedRead}
    (one : qs.filter (fun r => r.serial = x.serial) = [q]) (more : q.done < q.len) :
    drained c fill qs x =
      { x with
        ready := true
        beats := x.beats ++ (List.range (q.len - q.done)).map fun i =>
          windowBeat c (colourByte fill) q.offset q.size.val (q.done + i) } := by
  have own : x.serial = q.serial := by
    have m : q ∈ qs.filter (fun r => r.serial = x.serial) := one ▸ List.mem_singleton_self q
    simpa [eq_comm] using (List.mem_filter.1 m).2
  have left : max 1 (q.len - q.done) = q.len - q.done := by omega
  rw [drained_of_one one, QueuedRead.answer, if_pos own, left]
  rfl

/-- The pieces that STOP_OUTPUT changes, with its own write and cell, as the statement lists them. -/
theorem CellParts_stopParts (w : CellWrite) (o : OutId) : CellParts w ++ stopParts o ⊆
    CellParts w ++ [.output o, .feed 0, .feed 1, .feed 2, .feed 3, .reads, .busOut] := by
  intro p named
  simp only [CellParts, stopParts, givingUp, feedParts, List.mem_append, List.mem_cons, List.not_mem_nil,
    or_false] at named ⊢
  tauto

theorem State.exec_stopOutput {w : CellWrite} {o : OutId} {s : State} (ready : s.ready w)
    (target : targetQuad w = some o) (live : s.outputs[o].live = true) :
    exec (.stopOutput w) s = .next ((if s.outputs[o].state = .running then (s.taken 7 w).stopRunning o
      else (s.taken 7 w).stopStarting o).settle w.cell .done 0) := by
  refine (State.cellRow_of_ready ready 7 State.stopOutput).trans (congrArg _ ?_)
  refine (State.onQuad_of_target target _ _).trans ((State.judge_of_none ?_ _ _).trans ?_)
  · rw [State.taken_outputs]
    exact need_of_true live _
  · rw [State.taken_outputs]

theorem Output.state_of_live {x : Output} (live : x.live = true) (stopped : x.state ≠ .running) :
    x.state = .starting := by
  cases state : x.state <;> simp_all [Output.live]

/-- Settles O12: from RUNNING the output halts and its waiting reads are answered; a STARTING one has neither contexts
nor waiting reads. -/
theorem stopOutputGivesUpTheContexts : Obligations.StopOutputGivesUpTheContexts := by
  intro w o s ready notice holds target live
  have start := State.taken_quietly 7 w notice
  have outputs := State.taken_outputs 7 w s
  obtain ⟨c, config⟩ : ∃ c, s.outputs[o].config = some c :=
    Option.isSome_iff_exists.1 (holds.configured.2 fun h => by simp [Output.live, h, -Fin.getElem_fin] at live)
  generalize after : (if s.outputs[o].state = .running then (s.taken 7 w).stopRunning o
    else (s.taken 7 w).stopStarting o) = v
  have stops : (s.taken 7 w).Stops o v := by
    rw [← after]
    split
    · next running => exact State.stopRunning_stops start.2.2 (outputs ▸ config) (outputs ▸ running)
    · next stopped =>
      exact State.stopStarting_stops start.2.2 (outputs ▸ holds) (outputs ▸ Output.state_of_live live stopped)
  obtain ⟨cell, only, marks, settled⟩ :=
    State.settled_of_quietly notice stops.quiet (by simp [stopParts, givingUp, feedParts])
  have own : (v.settle w.cell .done 0).outputs[o] = s.outputs[o].ended := by
    rw [State.settle_outputs, stops.outputs, vector_set_self, outputs]
  refine ⟨_, after ▸ State.exec_stopOutput ready target live, cell,
    State.changesOnly_mono only (CellParts_stopParts w o), by rw [settled]; exact stops.marked, marks, ?_⟩
  rw [own]
  refine ⟨rfl, ?_, fun running => if_pos running, ⟨_, rfl, Contexts.retiredAfter_of_unused,
    fun p y held used others => Contexts.retiredAfter_of_used held used others⟩, rfl, rfl, rfl, rfl, rfl, rfl,
    fun starting => if_neg (by rw [starting]; simp), fun running => if_pos running, ?_, fun f => ?_⟩
  · by_cases running : s.outputs[o].state = .running
    · simp [Output.ended, running, Generator.idle, -Fin.getElem_fin]
    · simpa [Output.ended, running, -Fin.getElem_fin] using mt holds.counting.1 running
  · intro d running e idle
    rw [if_pos running] at after
    obtain ⟨u, flushed, bus, writes, reads⟩ := State.stopRunning_reads start.2.2 (o := o) (c := d)
      (outputs ▸ e) (outputs ▸ idle)
    rw [outputs] at reads
    refine ⟨u, drained d s.outputs[o].modes.fill s.outputs[o].builder.queue, ?_, ?_, ?_, ?_, ?_, ?_, fun x _ =>
      ⟨drained_of_not_named, fun q one more => drained_of_waiting one more⟩⟩
    · rw [settled, ← after, flushed]
    · rw [settled, ← after, flushed]
    · rw [settled, ← after, flushed]
    · rw [bus]; exact start.1 .busOut (by simp [CellParts])
    · rw [writes, (s.taken_wrote 7 w).1]
    · rw [reads]; exact congrArg _ (start.1 .reads (by simp [CellParts]))
  · rw [settled, stops.pins f, outputs, State.taken_feeds]
    rfl

end Sys2Proof.Machine
end

section
/-! The outputs' rules through the Line Builder (R115 to R118): a build changes use counts, clip counts and the retired
context, and the answering of reads changes no rule's part of an output. -/

namespace Sys2Proof.Machine

/-! ### The outputs of a state -/

/-- Every output of the four keeps its rules. -/
def OutputsHold (xs : Vector Output 4) : Prop := ∀ o : OutId, xs[o].Holds

theorem State.outputsHold_iff {s : State} : s.outputsHold ↔ OutputsHold s.outputs := Iff.rfl

theorem OutputsHold.set {xs : Vector Output 4} (h : OutputsHold xs) {o : OutId} {x : Output} (own : x.Holds) :
    OutputsHold (xs.set o x) := fun q => by
  by_cases same : q = o
  · rw [same, vector_set_self]
    exact own
  · have kept : (xs.set o x)[q] = xs[q] := vector_set_other _ _ _ _ same
    rw [kept]
    exact h q

/-- A write of one output by a change that keeps what the rules speak of. -/
theorem OutputsHold.set_congr {xs : Vector Output 4} (h : OutputsHold xs) {o : OutId} {x : Output}
    (state : x.state = xs[o].state) (config : x.config = xs[o].config) (gen : x.gen = xs[o].gen)
    (ctx : x.ctx = xs[o].ctx) : OutputsHold (xs.set o x) :=
  h.set ((h o).congr state config gen ctx)

theorem OutputsHold.map {xs : Vector Output 4} (h : OutputsHold xs) {g : Output → Output}
    (keeps : ∀ x : Output, x.Holds → (g x).Holds) : OutputsHold (xs.map g) := fun o => by
  have own : (xs.map g)[o] = g xs[o] := by simp
  rw [own]
  exact keeps _ (h o)

/-- A fold whose steps keep the outputs' rules keeps them. -/
theorem foldl_outputsHold {α : Type} {g : State → α → State}
    (keeps : ∀ s a, OutputsHold s.outputs → OutputsHold (g s a).outputs) :
    ∀ (l : List α) (s : State), OutputsHold s.outputs → OutputsHold (l.foldl g s).outputs
  | [], _, h => h
  | a :: l, s, h => foldl_outputsHold keeps l (g s a) (keeps s a h)

/-- A frame that names no output keeps the outputs. -/
theorem State.outputs_of_changesOnly {ps : List Part} {s t : State} (h : s.changesOnly ps t)
    (apart : ∀ o : OutId, Part.output o ∉ ps) : t.outputs = s.outputs :=
  Vector.ext fun i small => h (.output ⟨i, small⟩) (apart _)

/-- The outputs' rules after a frame that names one output, from that output's own. -/
theorem State.outputsHold_of_changesOnly {ps : List Part} {o : OutId} {s t : State} (holds : OutputsHold s.outputs)
    (h : s.changesOnly ps t) (apart : ∀ q : OutId, q ≠ o → Part.output q ∉ ps) (own : t.outputs[o].Holds) :
    OutputsHold t.outputs := fun q => by
  by_cases same : q = o
  · exact same ▸ own
  · have kept : t.outputs[q] = s.outputs[q] := h (.output q) (apart q same)
    rw [kept]
    exact holds q

theorem State.modifyBuilder_outputsHold {s : State} (h : OutputsHold s.outputs) (o : OutId)
    (g : LineBuilder → LineBuilder) : OutputsHold (s.modifyBuilder o g).outputs := by
  rw [State.modifyBuilder_outputs]
  exact h.set_congr rfl rfl rfl rfl

theorem State.modifyModes_outputsHold {s : State} (h : OutputsHold s.outputs) (o : OutId) (g : Modes → Modes) :
    OutputsHold (s.modifyModes o g).outputs := by
  rw [State.modifyModes_outputs]
  exact h.set_congr rfl rfl rfl rfl

/-! ### Changes of the contexts -/

theorem Contexts.isSome_changeHeld (p q : Parity) (g : Context → Context) (k : Contexts) :
    ((k.changeHeld p g).held q).isSome = (k.held q).isSome := by
  by_cases same : q = p
  · rw [same, Contexts.changeHeld, Contexts.held_setHeld, Option.isSome_map]
  · rw [Contexts.changeHeld, Contexts.held_setHeld_other same]

theorem Contexts.Sound.changeHeld {k : Contexts} (h : k.Sound) {g : Context → Context}
    (keeps : ∀ y : Context, y.Sound → (g y).Sound) (p : Parity) : (k.changeHeld p g).Sound := by
  refine ⟨fun q y held => ?_, fun y frozen => h.frozen y (by simpa [Contexts.changeHeld] using frozen),
    fun y retired => h.retired y (by simpa [Contexts.changeHeld] using retired)⟩
  by_cases same : q = p
  · rw [same, Contexts.changeHeld, Contexts.held_setHeld] at held
    obtain ⟨z, old, rfl⟩ := Option.map_eq_some_iff.1 held
    exact keeps z (h.held p z old)
  · rw [Contexts.changeHeld, Contexts.held_setHeld_other same] at held
    exact h.held q y held

theorem Output.Holds.changeHeld {x y : Output} (h : x.Holds) {p : Parity} {g : Context → Context}
    (state : y.state = x.state) (config : y.config = x.config) (gen : y.gen = x.gen)
    (ctx : y.ctx = x.ctx.changeHeld p g) (keeps : ∀ z : Context, z.Sound → (g z).Sound) : y.Holds := by
  refine h.change state config (by rw [gen]) (by rw [gen]) (fun q => ?_) (fun e => ?_) (fun e => ?_) ?_
  · rw [ctx, Contexts.isSome_changeHeld]
  · rw [ctx, Contexts.changeHeld, Contexts.setHeld_frozen, e]
  · rw [ctx, Contexts.changeHeld, Contexts.setHeld_decision, e]
  · rw [ctx]
    exact h.sound.changeHeld keeps p

/-- An output whose retired context alone has changed. -/
theorem Output.Holds.changeRetired {x y : Output} (h : x.Holds) {z : Option Context}
    (sound : ∀ w, z = some w → w.Sound) (state : y.state = x.state) (config : y.config = x.config)
    (gen : y.gen = x.gen) (ctx : y.ctx = { x.ctx with retired := z }) : y.Holds := by
  refine h.change state config (by rw [gen]) (by rw [gen]) (fun q => ?_) (fun e => by rw [ctx]; exact e)
    (fun e => by rw [ctx]; exact e) ?_
  · rw [ctx]
    cases q <;> rfl
  · rw [ctx]
    exact ⟨fun p w held => h.sound.held p w (by cases p <;> exact held), h.sound.frozen, sound⟩

/-- What a build changes of the context that it uses. -/
theorem Output.Holds.changeUser {x y : Output} (h : x.Holds) {p : Parity} {g : Context → Context}
    (state : y.state = x.state) (config : y.config = x.config) (gen : y.gen = x.gen)
    (ctx : y.ctx = x.ctx.changeUser p g) (keeps : ∀ z : Context, z.Sound → (g z).Sound) : y.Holds := by
  cases retired : x.ctx.retired with
  | none =>
    refine h.changeHeld (p := p) (g := g) state config gen ?_ keeps
    rw [ctx, Contexts.changeUser, retired]
  | some z =>
    refine h.changeRetired (z := some (g z)) (fun w e => ?_) state config gen ?_
    · cases e
      exact keeps z (h.sound.retired z retired)
    · rw [ctx, Contexts.changeUser, retired]

/-! ### The Line Builder -/

@[simp] theorem State.lookupAll_outputs (o : OutId) (b : Build) (ks : List CacheKey) (s : State) :
    (s.lookupAll o b ks).1.outputs = s.outputs :=
  State.outputs_of_changesOnly (State.lookupAll_changesOnly o b ks s) (by simp)

@[simp] theorem State.offerSlate_outputs (w : WaitingSlate) (s : State) : (s.offerSlate w).outputs = s.outputs := by
  unfold State.offerSlate
  split <;> simp

@[simp] theorem State.releaseSlate_outputs (s : State) : s.releaseSlate.outputs = s.outputs :=
  foldl_keeps State.outputs _ (fun s w => s.offerSlate_outputs w) _ _

@[simp] theorem State.blackOut_outputs (o : OutId) (s : State) : (s.blackOut o).outputs = s.outputs := by
  unfold State.blackOut
  split
  · rfl
  · refine foldl_keeps State.outputs _ (fun _ _ => ?_) _ _
    rfl

section builder
variable {s : State} (h : OutputsHold s.outputs)
include h

theorem State.conceal_outputsHold (o : OutId) : OutputsHold (s.conceal o).outputs := by
  unfold State.conceal
  split
  · exact h
  · split
    · refine State.modifyBuilder_outputsHold ?_ o _
      rw [State.lookupAll_outputs]
      exact h
    · exact h

theorem State.startBuild_outputsHold (o : OutId) (y : Nat) : OutputsHold (s.startBuild o y).outputs := by
  simp only [State.startBuild]
  split
  · exact h
  · split
    · split
      · rw [State.modifyOutput_outputs, State.lookupAll_outputs]
        exact h.set ((h o).changeHeld rfl rfl rfl rfl fun _ sound => sound)
      · exact h
    · exact h

theorem State.answerHead_outputsHold (o : OutId) (bytes : List Byte) (i : Option (Fin 2)) :
    OutputsHold (s.answerHead o bytes i).outputs := by
  unfold State.answerHead
  split
  · exact h
  · refine State.modifyBuilder_outputsHold ?_ o _
    rw [State.answerBeat_outputs]
    exact h

theorem State.startRun_outputsHold (o : OutId) (page : Page) : OutputsHold (s.startRun o page).outputs := by
  unfold State.startRun
  split
  · exact foldl_outputsHold (fun s p k => by rw [State.offerSlate_outputs]; exact k) _ _
      (State.modifyBuilder_outputsHold h o _)
  · exact h

omit h in
theorem State.serve_outputsHold (o : OutId) : ∀ (n : Nat) (s : State), OutputsHold s.outputs →
    OutputsHold (State.serve n o s).outputs
  | 0, _, h => h
  | n + 1, s, h => by
    unfold State.serve
    split
    · exact h
    · split
      · exact h
      · split
        · exact State.serve_outputsHold o n _ (State.answerHead_outputsHold h o _ _)
        · exact h
        · exact State.startBuild_outputsHold h o _
        · exact State.startRun_outputsHold h o _

theorem State.takeHead_outputsHold (o : OutId) : OutputsHold (s.takeHead o).outputs :=
  State.serve_outputsHold o _ s h

omit h in
theorem State.answerRun_outputsHold (o : OutId) (r : SlateRun) : ∀ (n : Nat) (s : State), OutputsHold s.outputs →
    OutputsHold (State.answerRun n o r s).outputs
  | 0, _, h => h
  | n + 1, s, h => by
    unfold State.answerRun
    split
    · exact h
    · exact State.answerRun_outputsHold o r n _ (State.answerHead_outputsHold h o _ _)

theorem State.slateAnswer_outputsHold (o : OutId) (i : Nat) (beats : List ReadBeat) :
    OutputsHold (s.slateAnswer o i beats).outputs := by
  simp only [State.slateAnswer]
  split
  · exact h
  · generalize (if anyError beats then none else some (beatData beats)) = got
    split
    · refine State.takeHead_outputsHold (State.modifyBuilder_outputsHold
        (State.answerRun_outputsHold o _ _ _ ?_) o _) o
      rw [State.modifyOutput_outputs]
      refine h.set ?_
      split
      · exact (h o).congr rfl rfl rfl rfl
      · exact h o
    · exact State.modifyBuilder_outputsHold h o _

theorem State.releaseRetired_outputsHold (o : OutId) : OutputsHold (s.releaseRetired o).outputs := by
  unfold State.releaseRetired
  split
  · exact h
  · split
    · rw [State.modifyContexts_outputs, State.unpin_outputs]
      exact h.set ((h o).changeRetired (z := none) (by simp) rfl rfl rfl rfl)
    · exact h

theorem State.prefetch_outputsHold (o : OutId) (y : Nat) : OutputsHold (s.prefetch o y).outputs := by
  unfold State.prefetch
  split
  · exact State.startBuild_outputsHold h o y
  · exact h

theorem State.completeBuild_outputsHold (o : OutId) (b : Build) : OutputsHold (s.completeBuild o b).outputs := by
  unfold State.completeBuild
  refine State.prefetch_outputsHold (State.takeHead_outputsHold (State.releaseRetired_outputsHold ?_ o) o) o _
  dsimp only
  simp only [apply_ite State.outputs, State.mark_outputs, ite_self, State.modifyOutput_outputs]
  refine h.set ?_
  split
  · exact (h o).changeUser rfl rfl rfl rfl fun _ sound => sound
  · exact (h o).changeUser rfl rfl rfl rfl fun _ sound => sound

theorem State.buildCompletion_outputsHold (o : OutId) : OutputsHold (s.buildCompletion o).outputs := by
  unfold State.buildCompletion
  split
  · exact h
  · split
    · rw [State.flush_outputs]
      exact State.completeBuild_outputsHold h o _
    · exact h

theorem State.outputRead_outputsHold (o : OutId) (b : Burst) : OutputsHold (s.outputRead o b).outputs := by
  simp only [State.outputRead]
  split
  · exact h
  · have queued (g : LineBuilder → LineBuilder) :
        OutputsHold (State.modifyBuilder o g (s.openRead b [] false)).outputs := by
      refine State.modifyBuilder_outputsHold ?_ o _
      rw [State.openRead_outputs]
      exact h
    split
    · rw [State.flush_outputs]
      exact State.takeHead_outputsHold (queued _) o
    · exact queued _

theorem State.fillAnswer_outputsHold (e : EntryId) (beats : List ReadBeat) :
    OutputsHold (s.fillAnswer e beats).outputs := by
  simp only [State.fillAnswer]
  split
  · exact h
  · refine foldl_outputsHold (fun s o k => ?_) _ _ h
    split
    · split
      · exact State.conceal_outputsHold k o
      · exact k
    · exact k

end builder

end Sys2Proof.Machine
end

section
/-! The outputs' rules through the Ingest Tracker, the pulses and the tick (R42, R48, R52 to R57): a feed event writes
mode states alone, and a pulse keeps the rules of the output that latches. -/

namespace Sys2Proof.Machine

/-! ### The Ingest Tracker -/

@[simp] theorem State.steerWrite_outputs (f : FeedId) (c : FeedConfig) (b : Burst) (s : State) :
    (s.steerWrite f c b).outputs = s.outputs := by
  simp only [State.steerWrite]
  split <;> simp

@[simp] theorem State.ingestRead_outputs (f : FeedId) (b : Burst) (s : State) :
    (s.ingestRead f b).outputs = s.outputs := by
  unfold State.ingestRead
  split <;> simp

@[simp] theorem State.ingestResponse_outputs (a : IngestAccount) (resp : Resp) (s : State) :
    (s.ingestResponse a resp).outputs = s.outputs := by
  unfold State.ingestResponse
  refine (foldl_keeps State.outputs _ (fun s _ => s.notify_outputs _) _ _).trans ?_
  split <;> simp

section ingest
variable {s : State} (h : OutputsHold s.outputs)
include h

theorem State.feedEvent_outputsHold (f : FeedId) (e : FeedEvent) : OutputsHold (s.feedEvent f e).outputs := by
  refine foldl_outputsHold (fun s o k => ?_) _ _ h
  split
  · exact State.modifyModes_outputsHold k o _
  · exact k

theorem State.anchor_outputsHold (f : FeedId) (c : FeedConfig) (a : Anchor) (p : Parity) :
    OutputsHold (s.anchor f c a p).outputs := by
  simp only [State.anchor]
  refine foldl_outputsHold (fun s e k => State.feedEvent_outputsHold k f e) _ _ ?_
  rw [State.putFeed_outputs]
  split
  · rw [State.notify_outputs]
    exact h
  · exact h

theorem State.takeAnchor_outputsHold (f : FeedId) (c : FeedConfig) (x : Nat) :
    OutputsHold (s.takeAnchor f c x).outputs := by
  unfold State.takeAnchor
  split
  · exact h
  · split
    · exact State.anchor_outputsHold h f c _ _
    · exact h

theorem State.ingestWrite_outputsHold (f : FeedId) (b : Burst) : OutputsHold (s.ingestWrite f b).outputs := by
  unfold State.ingestWrite
  split
  · exact h
  · rw [State.steerWrite_outputs]
    exact State.takeAnchor_outputsHold h f _ _

theorem State.enterLost_outputsHold (f : FeedId) : OutputsHold (s.enterLost f).outputs := by
  refine State.feedEvent_outputsHold ?_ f _
  rw [State.modifyFeed_outputs]
  exact h

theorem State.lossExpiry_outputsHold (f : FeedId) : OutputsHold (s.lossExpiry f).outputs := by
  unfold State.lossExpiry
  split
  · exact State.enterLost_outputsHold h f
  · exact h

end ingest

/-! ### Pulses and the tick -/

@[simp] theorem State.referenceAbsent_outputs (r : Ref) (s : State) :
    (s.referenceAbsent r).outputs = s.outputs := by
  unfold State.referenceAbsent
  split <;> simp

/-- The output of a pulse awaits it, by the cause of the pulse. -/
theorem Output.awaits_of_takesPulse {x : Output} {r : Ref} {c : OutputConfig} {cause : PulseCause}
    (takes : x.takesPulse r c cause) : x.Awaits c (c.firstPulse cause) := by
  obtain ⟨-, -, ⟨start, starting⟩ | ⟨realign, running, -, -⟩⟩ := takes
  · exact .inl ⟨start, rfl, starting⟩
  · exact .inr ⟨by rw [OutputConfig.firstPulse, realign]; simp, .inl rfl, running⟩

/-- A COUNTING generator is that of a RUNNING output, and its next parity is one of the scan (R52, R55). -/
theorem Output.Holds.awaits_underflow {x : Output} {c : OutputConfig} (h : x.Holds) (config : x.config = some c)
    (counting : x.gen.counting = true) : x.Awaits c (x.underflowPulse c) :=
  .inr ⟨by simp [Output.underflowPulse], h.next c (h.counting.1 counting) config, h.counting.1 counting⟩

section pulse
variable {s : State} (h : OutputsHold s.outputs)
include h

theorem State.Pulsed.outputsHold {t : State} {o : OutId} {c : OutputConfig} {p : Pulse} (pulsed : s.Pulsed o c p t)
    (awaits : s.outputs[o].Awaits c p) : OutputsHold t.outputs :=
  State.outputsHold_of_changesOnly h pulsed.only (fun q other => by simpa [feedParts] using other)
    (pulsed.holds (h o) awaits)

theorem State.underflow_outputsHold (o : OutId) : OutputsHold (s.underflow o).outputs := by
  cases config : s.outputs[o].config with
  | none =>
    have still : s.underflow o = s := by simp only [State.underflow, config]
    rw [still]
    exact h
  | some c =>
    cases due : s.outputs[o].underflowDue with
    | false =>
      rw [State.underflow_of_not_due due]
      exact h
    | true =>
      obtain ⟨counting, left⟩ := (Output.underflowDue_iff _).1 due
      exact State.Pulsed.outputsHold h (State.underflow_pulsed config counting left)
        ((h o).awaits_underflow config counting)

theorem State.offerPulse_outputsHold (r : Ref) (o : OutId) : OutputsHold (s.offerPulse r o).outputs := by
  by_cases takes : ∃ c cause, s.outputs[o].takesPulse r c cause
  · obtain ⟨c, cause, takes⟩ := takes
    exact State.Pulsed.outputsHold h (State.offerPulse_of_takes takes) (Output.awaits_of_takesPulse takes)
  · rw [State.offerPulse_of_not_takes fun c cause k => takes ⟨c, cause, k⟩]
    exact h

theorem State.referencePulse_outputsHold (r : Ref) : OutputsHold (s.referencePulse r).outputs := by
  refine foldl_outputsHold (fun s o k => State.offerPulse_outputsHold k r o) _ _ ?_
  rw [State.putRef_outputs]
  exact h

theorem State.settleTick_outputsHold : OutputsHold s.settleTick.outputs := by
  refine foldl_outputsHold (fun s o k => State.underflow_outputsHold k o) _ _
    (foldl_outputsHold (fun s f k => State.lossExpiry_outputsHold k f) _ _ ?_)
  rw [State.referenceAbsent_outputs, State.referenceAbsent_outputs]
  exact h

/-- A count of a generator is no part of the rules (R52). -/
theorem State.advance_outputsHold : OutputsHold s.advance.outputs := by
  refine h.map fun x holds => ?_
  unfold Output.ticked
  split
  · exact holds.change rfl rfl rfl rfl (fun _ => rfl) id id holds.sound
  · exact holds

end pulse

end Sys2Proof.Machine
end

section
/-! The outputs' rules through the commands (R169 to R187): CONFIGURE_OUTPUT and START_OUTPUT find the output neither
RUNNING nor with contexts, STOP_OUTPUT leaves it so, and DEVICE_CLEAR makes it initial. -/

namespace Sys2Proof.Machine

/-! ### Outputs that are not RUNNING -/

/-- A change of an output that is RUNNING neither before nor after, with its generator and contexts kept. -/
theorem Output.Holds.restate {x y : Output} (h : x.Holds) (before : x.state ≠ .running) (after : y.state ≠ .running)
    (configured : y.config.isSome = true ↔ y.state ≠ .unconfigured) (gen : y.gen = x.gen) (ctx : y.ctx = x.ctx) :
    y.Holds := by
  obtain ⟨-, -, -, frozen, decision⟩ := h.contexts before
  refine Output.holds_of_stopped after ?_ configured (fun p => by rw [ctx]; exact h.held_none before p)
    (by rw [ctx]; exact frozen) (by rw [ctx]; exact decision) (by rw [ctx]; exact h.sound.retired)
  rw [gen, ← Bool.not_eq_true, h.counting]
  exact before

theorem Contexts.Sound.retiring {k : Contexts} (h : k.Sound) (p : Parity) {before : Option Context}
    (sound : ∀ y, before = some y → y.Sound) : ∀ y, k.retiring p before = some y → y.Sound := by
  unfold Contexts.retiring
  split
  · exact sound
  · next z held =>
    split
    · exact sound
    · rintro _ ⟨⟩
      exact h.held p z held

theorem Contexts.Sound.retiredAfter {k : Contexts} (h : k.Sound) : ∀ y, k.retiredAfter = some y → y.Sound :=
  h.retiring .bottom (h.retiring .top (h.retiring .whole h.retired))

/-- An output halted from RUNNING keeps the rules (R59, R84). -/
theorem Output.Holds.halted {x : Output} (h : x.Holds) (running : x.state = .running) : x.halted.Holds := by
  refine Output.holds_of_stopped (by simp [Output.halted]) rfl ?_ (fun p => by cases p <;> rfl) rfl rfl
    h.sound.retiredAfter
  have config : x.config.isSome = true := h.configured.2 (by simp [running])
  simpa [Output.halted] using config

theorem Output.cleared_holds (x : Output) : x.cleared.Holds :=
  Output.holds_of_stopped (by simp [Output.cleared, Output.initial]) rfl
    (by simp [Output.cleared, Output.initial]) (fun p => by cases p <;> rfl) rfl rfl
    (by simp [Output.cleared, Output.initial, Contexts.initial])

theorem Output.initial_holds : Output.initial.Holds := Output.initial.cleared_holds

/-! ### Checks -/

theorem eq_none_of_firstRefusal : ∀ {rs : List Refused}, firstRefusal rs = none → ∀ r ∈ rs, r = none
  | [], _, _, m => absurd m List.not_mem_nil
  | some _ :: _, accepted, _, _ => by simp [firstRefusal] at accepted
  | none :: rs, accepted, r, m => by
    rcases List.mem_cons.1 m with rfl | later
    · rfl
    · exact eq_none_of_firstRefusal (rs := rs) accepted r later

theorem eq_true_of_need {ok : Bool} {code : ResultCode} (accepted : need ok code = none) : ok = true := by
  cases ok with
  | true => rfl
  | false => simp [need] at accepted

/-! ### The commands -/

@[simp] theorem State.abortCells_outputs (c : CellId) (s : State) : (s.abortCells c).outputs = s.outputs := by
  refine foldl_keeps State.outputs _ (fun s d => ?_) _ _
  split <;> simp

@[simp] theorem State.identify_outputs (w : CellWrite) (s : State) : (s.identify w).outputs = s.outputs := by
  unfold State.identify
  split <;> simp

@[simp] theorem State.loadCoefficients_outputs (w : CellWrite) (s : State) :
    (s.loadCoefficients w).outputs = s.outputs := by
  unfold State.loadCoefficients
  split
  · simp
  · split
    · simp
    · rfl

section commands
variable {s : State} (h : OutputsHold s.outputs)
include h

/-- A command checked and carried out keeps the outputs' rules when its effect does where the checks pass (R169). -/
theorem State.judge_outputsHold {act : State → State} (c : CellId) {refusal : Refused}
    (carried : refusal = none → OutputsHold (act s).outputs) : OutputsHold (s.judge c refusal act).outputs := by
  unfold State.judge
  split
  · rw [State.settle_outputs]
    exact h
  · rw [State.settle_outputs]
    exact carried rfl

theorem State.onQuad_outputsHold {act : Fin 4 → State → State} (w : CellWrite)
    (carried : ∀ i, OutputsHold (act i s).outputs) : OutputsHold (s.onQuad w act).outputs := by
  unfold State.onQuad
  split
  · rw [State.settle_outputs]
    exact h
  · exact carried _

@[simp] theorem State.configureFeed_outputsHold (w : CellWrite) : OutputsHold (s.configureFeed w).outputs :=
  State.onQuad_outputsHold h w fun f => State.judge_outputsHold h _ fun _ => by
    rw [State.mark_outputs, State.modifyFeed_outputs]
    exact h

@[simp] theorem State.enableFeed_outputsHold (w : CellWrite) : OutputsHold (s.enableFeed w).outputs := by
  refine State.onQuad_outputsHold h w fun f => ?_
  split
  · rw [State.settle_outputs]
    exact h
  · refine State.judge_outputsHold h _ fun _ => ?_
    rw [State.mark_outputs]
    refine State.feedEvent_outputsHold ?_ f _
    rw [State.modifyFeed_outputs]
    exact h

@[simp] theorem State.disableFeed_outputsHold (w : CellWrite) : OutputsHold (s.disableFeed w).outputs :=
  State.onQuad_outputsHold h w fun f => State.judge_outputsHold h _ fun _ => by
    rw [State.mark_outputs, State.endFeed, State.notify_outputs, State.modifyFeed_outputs]
    exact h

@[simp] theorem State.rearmMonitor_outputsHold (w : CellWrite) : OutputsHold (s.rearmMonitor w).outputs :=
  State.onQuad_outputsHold h w fun f => State.judge_outputsHold h _ fun _ => by
    rw [State.mark_outputs, State.modifyFeed_outputs]
    exact h

/-- An output that CONFIGURE_OUTPUT may write is not live, so it has no frozen context to give up. -/
@[simp] theorem State.configureOutput_outputsHold (w : CellWrite) : OutputsHold (s.configureOutput w).outputs := by
  refine State.onQuad_outputsHold h w fun o => State.judge_outputsHold h _ fun accepted => ?_
  have idle : s.outputs[o].live = false := by
    simpa using eq_true_of_need (eq_none_of_firstRefusal accepted _ (List.mem_cons_self ..))
  have stopped : s.outputs[o].state ≠ .running := fun e => by simp [Output.live, e, -Fin.getElem_fin] at idle
  obtain ⟨-, -, -, frozen, -⟩ := (h o).contexts stopped
  rw [State.dropFrozen_of_none frozen, State.mark_outputs, State.modifyOutput_outputs]
  exact h.set ((h o).restate stopped (by simp [Output.configured]) (by simp [Output.configured]) rfl rfl)

@[simp] theorem State.startOutput_outputsHold (w : CellWrite) : OutputsHold (s.startOutput w).outputs := by
  refine State.onQuad_outputsHold h w fun o => ?_
  split
  · rw [State.settle_outputs]
    exact h
  · next c config =>
    refine State.judge_outputsHold h _ fun accepted => ?_
    have stopped : s.outputs[o].state = .stopped := by
      simpa using eq_true_of_need (eq_none_of_firstRefusal accepted _ (List.mem_cons_self ..))
    rw [State.beginStarting, State.modifyOutput_outputs]
    exact h.set ((h o).restate (by rw [stopped]; simp) (by simp) (by rw [config]; simp) rfl rfl)

theorem State.stopRunning_outputsHold {o : OutId} (running : s.outputs[o].state = .running) :
    OutputsHold (s.stopRunning o).outputs := by
  rw [State.stopRunning_eq, State.flush_outputs]
  refine State.takeHead_outputsHold ?_ o
  rw [State.halt_outputs]
  exact h.set ((h o).halted running)

theorem State.stopStarting_outputsHold {o : OutId} (starting : s.outputs[o].state = .starting) :
    OutputsHold (s.stopStarting o).outputs := by
  have config : s.outputs[o].config.isSome = true := (h o).configured.2 (by rw [starting]; simp)
  rw [State.stopStarting, State.modifyOutput_outputs]
  exact h.set ((h o).restate (by rw [starting]; simp) (by simp) (by simpa using config) rfl rfl)

@[simp] theorem State.stopOutput_outputsHold (w : CellWrite) : OutputsHold (s.stopOutput w).outputs := by
  refine State.onQuad_outputsHold h w fun o => State.judge_outputsHold h _ fun accepted => ?_
  split
  · next running => exact State.stopRunning_outputsHold h running
  · next stopped =>
    exact State.stopStarting_outputsHold h (Output.state_of_live (eq_true_of_need accepted) stopped)

@[simp] theorem State.setResponse_outputsHold (w : CellWrite) : OutputsHold (s.setResponse w).outputs :=
  State.onQuad_outputsHold h w fun o => State.judge_outputsHold h _ fun _ => by
    rw [State.mark_outputs]
    exact State.modifyModes_outputsHold h o _

@[simp] theorem State.setSlate_outputsHold (w : CellWrite) : OutputsHold (s.setSlate w).outputs :=
  State.onQuad_outputsHold h w fun o => State.judge_outputsHold h _ fun _ => by
    rw [State.mark_outputs]
    exact State.modifyModes_outputsHold h o _

@[simp] theorem State.forceMode_outputsHold (w : CellWrite) : OutputsHold (s.forceMode w).outputs :=
  State.onQuad_outputsHold h w fun o => State.judge_outputsHold h _ fun _ => by
    rw [State.mark_outputs]
    exact State.modifyModes_outputsHold h o _

@[simp] theorem State.releaseMode_outputsHold (w : CellWrite) : OutputsHold (s.releaseMode w).outputs :=
  State.onQuad_outputsHold h w fun o => State.judge_outputsHold h _ fun _ => by
    rw [State.mark_outputs]
    exact State.modifyModes_outputsHold h o _

theorem State.clearWord_outputsHold (r : RecordSel) (snapshot mask : Conds) :
    OutputsHold (s.clearWord r snapshot mask).outputs := by
  cases r with
  | device => simpa [State.clearWord, apply_ite State.outputs] using h
  | feed f => simpa [State.clearWord, apply_ite State.outputs] using h
  | output o =>
    simp only [State.clearWord, apply_ite State.outputs, State.setDevice_outputs, ite_self, State.modifyOutput_outputs]
    exact h.set_congr rfl rfl rfl rfl

@[simp] theorem State.clearConditions_outputsHold (w : CellWrite) : OutputsHold (s.clearConditions w).outputs := by
  unfold State.clearConditions
  split
  · rw [State.settle_outputs]
    exact h
  · rw [State.settle_outputs]
    exact State.clearWord_outputsHold h _ _ _

theorem State.setMask_outputsHold (r : RecordSel) (mask : Conds) : OutputsHold (s.setMask r mask).outputs := by
  cases r with
  | device => simpa [State.setMask] using h
  | feed f => simpa [State.setMask] using h
  | output o =>
    rw [State.setMask, State.modifyOutput_outputs, State.mark_outputs]
    exact h.set_congr rfl rfl rfl rfl

@[simp] theorem State.setMasks_outputsHold (w : CellWrite) : OutputsHold (s.setMasks w).outputs := by
  unfold State.setMasks
  split
  · rw [State.settle_outputs]
    exact h
  · rw [State.settle_outputs]
    exact State.setMask_outputsHold h _ _

omit h in
theorem State.deviceClear_outputs (w : CellWrite) (s : State) :
    (s.deviceClear w).outputs = s.outputs.map Output.cleared := by
  have black := foldl_keeps State.outputs _ (fun s o => State.blackOut_outputs o s) allOutputs s
  simp [State.deviceClear, State.clearBlocks, black]

@[simp] theorem State.deviceClear_outputsHold (w : CellWrite) : OutputsHold (s.deviceClear w).outputs := by
  rw [State.deviceClear_outputs]
  exact h.map fun x _ => x.cleared_holds

@[simp] theorem State.runCommand_outputsHold (code : Byte) (w : CellWrite) :
    OutputsHold (s.runCommand code w).outputs := by
  unfold State.runCommand
  split <;> simp [h]

/-- A whole-cell write keeps the outputs' rules when the command it brings does (R166, R168). -/
theorem State.commandCell_outputsHold {run : CellWrite → State → State} {w : CellWrite}
    (keeps : ∀ s, OutputsHold s.outputs → OutputsHold (run w s).outputs) :
    OutputsHold (s.commandCell w run).outputs := by
  unfold State.commandCell
  split
  · rw [State.setDevice_outputs]
    exact h
  · refine keeps _ ?_
    rw [State.takeCell, State.putCell_outputs]
    exact h

end commands

end Sys2Proof.Machine
end

section
/-! The outputs' rules through the memory path, the reset and the rows of the table: every step keeps them. -/

namespace Sys2Proof.Machine

/-! ### What leaves the outputs alone -/

@[simp] theorem State.hold_outputs (b : Burst) (s : State) : (s.hold b).outputs = s.outputs := by
  unfold State.hold
  split <;> simp

@[simp] theorem State.refuse_outputs (b : Burst) (cond : Conds) (s : State) :
    (s.refuse b cond).outputs = s.outputs := by
  simp only [State.refuse, State.flush_outputs, State.setDevice_outputs]
  split <;> simp

@[simp] theorem State.grantFetch_outputs (o : OutId) (s : State) : (s.grantFetch o).outputs = s.outputs := by
  unfold State.grantFetch
  split <;> simp

@[simp] theorem State.setIdentify_outputs (x : IdentifyStage) (c : CellId) (s : State) :
    (s.setIdentify x c).outputs = s.outputs := by
  unfold State.setIdentify
  split <;> simp

@[simp] theorem State.grantResult_outputs (c : CellId) (word : Word) (s : State) :
    (s.grantResult c word).outputs = s.outputs := by
  simp only [State.grantResult, State.addGranted_outputs]
  split <;> simp

@[simp] theorem State.hostAnswered_outputs (c : CellId) (s : State) : (s.hostAnswered c).outputs = s.outputs := by
  unfold State.hostAnswered
  split <;> simp

@[simp] theorem State.busEffect_outputs (r : Forwarded) (resp : Resp) (s : State) :
    (s.busEffect r resp).outputs = s.outputs := by
  unfold State.busEffect
  split
  · rfl
  · rfl
  · exact foldl_keeps State.outputs _ (fun s c => s.hostAnswered_outputs c) _ _
  · exact foldl_keeps State.outputs _ (fun s _ => s.notify_outputs _) _ _
  · simp
  · simp

@[simp] theorem State.identified_outputs (c : CellId) (s : State) : (s.identified c).outputs = s.outputs := by
  unfold State.identified
  split
  · rfl
  · split <;> simp

@[simp] theorem State.recordWritten_outputs (cells : List CellId) (s : State) :
    (s.recordWritten cells).outputs = s.outputs :=
  foldl_keeps State.outputs _ (fun s c => s.identified_outputs c) _ _

@[simp] theorem State.resultWritten_outputs (c : CellId) (s : State) : (s.resultWritten c).outputs = s.outputs := by
  unfold State.resultWritten
  split
  · rfl
  · split <;> simp

@[simp] theorem State.loadComplete_outputs (k : BankId) (beats : List ReadBeat) (s : State) :
    (s.loadComplete k beats).outputs = s.outputs := by
  unfold State.loadComplete
  split
  · rfl
  · simp only
    split
    · simp
    · split <;> simp

/-! ### Bursts at the Bus Port -/

section rows
variable {s : State} (h : OutputsHold s.outputs)
include h

theorem State.offerCell_outputsHold (base : Nat) (b : Burst) (c : CellId) :
    OutputsHold (s.offerCell base b c).outputs := by
  unfold State.offerCell
  split
  · exact State.commandCell_outputsHold h fun s k => State.runCommand_outputsHold k _ _
  · split
    · rw [State.setDevice_outputs]
      exact h
    · exact h

theorem State.controlWrite_outputsHold (b : Burst) : OutputsHold (s.controlWrite b).outputs := by
  refine foldl_outputsHold (fun s c k => State.offerCell_outputsHold k _ b c) _ _ ?_
  rw [State.forward_outputs]
  exact h

theorem State.dispatch_outputsHold (b : Burst) : OutputsHold (s.dispatch b).outputs := by
  apply State.dispatch_elim (P := fun t => OutputsHold t.outputs)
  case forwarded =>
    intro kind _
    rw [State.forward_outputs]
    exact h
  case controlWrite => exact fun _ => State.controlWrite_outputsHold h b
  case ingestWrite => exact fun f _ => State.ingestWrite_outputsHold h f b
  case ingestRead =>
    intro f _
    rw [State.ingestRead_outputs]
    exact h
  case outputRead => exact fun o _ => State.outputRead_outputsHold h o b
  case refused =>
    intro _
    rw [State.refuse_outputs]
    exact h
  case toWindow =>
    intro _
    rw [State.refuse_outputs]
    exact h

theorem State.presentBurst_outputsHold (b : Burst) : OutputsHold (s.presentBurst b).outputs := by
  unfold State.presentBurst
  split
  · refine State.dispatch_outputsHold ?_ b
    rw [State.putHeld_outputs]
    exact h
  · rw [State.hold_outputs]
    exact h

theorem State.hostCommand_outputsHold {run : CellWrite → State → State} {w : CellWrite}
    (keeps : ∀ s, OutputsHold s.outputs → OutputsHold (run w s).outputs) (code : Byte) :
    OutputsHold (s.hostCommand code run w).outputs := by
  simp only [State.hostCommand]
  split
  · refine State.commandCell_outputsHold ?_ keeps
    rw [State.forward_outputs, State.putHeld_outputs]
    exact h
  · rw [State.hold_outputs]
    exact h

/-! ### The arbiter and the responses -/

/-- An update count is no part of the rules (R195). -/
theorem State.countUpdate_outputsHold (r : RecordSel) : OutputsHold (s.countUpdate r).outputs := by
  cases r with
  | device => exact h
  | feed f => exact h
  | output o => exact h.set_congr rfl rfl rfl rfl

theorem State.grantRecord_outputsHold (r : RecordSel) : OutputsHold (s.grantRecord r).outputs := by
  simp only [State.grantRecord, State.addGranted_outputs]
  refine foldl_outputsHold (fun s c k => ?_) _ _ (State.countUpdate_outputsHold h r)
  rw [State.setIdentify_outputs]
  exact k

theorem State.grantThird_outputsHold (g : Housekeeping) (rest : List Housekeeping) :
    OutputsHold (s.grantThird g rest).outputs := by
  cases g with
  | record r => exact State.grantRecord_outputsHold (s := { s with class3 := rest }) h r
  | trace | result | table => simpa [State.grantThird] using h

theorem State.offerThird_outputsHold : OutputsHold s.offerThird.outputs := by
  unfold State.offerThird
  split
  · exact h
  · split
    · exact h
    · exact State.grantThird_outputsHold h _ _

theorem State.grant_outputsHold : OutputsHold s.grant.outputs := by
  unfold State.grant
  split
  · exact h
  · split
    · rw [State.grantFetch_outputs]
      exact h
    · split
      · exact State.offerThird_outputsHold h
      · split
        · exact State.offerThird_outputsHold h
        · rw [State.grantForwarded, State.addGranted_outputs]
          exact h

theorem State.fetched_outputsHold (o : OutId) (f : Fetch) (beats : List ReadBeat) :
    OutputsHold (s.fetched o f beats).outputs := by
  cases f with
  | fill e => exact State.fillAnswer_outputsHold h e beats
  | slate i =>
    rw [State.fetched, State.flush_outputs]
    exact State.slateAnswer_outputsHold h o i beats

theorem State.finish_outputsHold (w : Work) (r : Reply) : OutputsHold (s.finish w r).outputs := by
  cases w with
  | bus x => simpa [State.finish, State.busWritten, State.busReadBack, apply_ite State.outputs] using h
  | fetch o f => exact State.fetched_outputsHold h o f _
  | record | trace | result | table | discarded => simpa [State.finish] using h

/-! ### The rows of the table -/

/-- What a step of the part answers keeps the outputs' rules, where it is a next state. -/
def Answer.keepsOutputs (a : Answer) : Prop := ∀ t, a = .next t → OutputsHold t.outputs

omit h in
theorem Answer.next_keepsOutputs {t : State} (k : OutputsHold t.outputs) : Answer.keepsOutputs (.next t) := by
  rintro _ ⟨⟩
  exact k

theorem State.unlessReset_keepsOutputs {act : State → Answer} (k : Answer.keepsOutputs (act s)) :
    Answer.keepsOutputs (s.unlessReset act) := by
  unfold State.unlessReset
  split
  · exact Answer.next_keepsOutputs h
  · exact k

theorem busRow_keepsOutputs (b : Burst) : Answer.keepsOutputs (busRow b s) :=
  State.unlessReset_keepsOutputs h (Answer.next_keepsOutputs (State.presentBurst_outputsHold h b))

theorem cellRow_keepsOutputs {run : CellWrite → State → State} {w : CellWrite}
    (keeps : ∀ s, OutputsHold s.outputs → OutputsHold (run w s).outputs) (code : Byte) :
    Answer.keepsOutputs (cellRow code run w s) :=
  State.unlessReset_keepsOutputs h (Answer.next_keepsOutputs (State.hostCommand_outputsHold h keeps code))

theorem replyRow_keepsOutputs (r : Reply) : Answer.keepsOutputs (replyRow r s) := by
  refine State.unlessReset_keepsOutputs h ?_
  unfold State.takeReply
  split
  · rintro _ ⟨⟩
  · exact Answer.next_keepsOutputs
      (State.finish_outputsHold (s := { s with granted := s.granted.eraseP (matchesGrant r) }) h _ r)

omit h in
theorem State.enterReset_outputsHold (edge : Bool) (s : State) : OutputsHold (s.enterReset edge).outputs := fun o => by
  have initial : (s.enterReset edge).outputs[o] = Output.initial := by simp [State.enterReset, State.initial]
  rw [initial]
  exact Output.initial_holds

theorem execResetRelease_keepsOutputs (straps : BitVec 10) : Answer.keepsOutputs (execResetRelease straps s) := by
  refine Answer.next_keepsOutputs ?_
  split
  · rw [State.release, State.markAll_outputs]
    exact h
  · exact h

/-- No command or event breaks the outputs' rules. -/
theorem exec_keepsOutputs (c : Instr) : Answer.keepsOutputs (exec c s) := by
  have own {act : State → State} (k : OutputsHold (act s).outputs) :
      Answer.keepsOutputs (s.unlessReset fun s => .next (act s)) :=
    State.unlessReset_keepsOutputs h (Answer.next_keepsOutputs k)
  cases c with
  | configureFeed | enableFeed | disableFeed | rearmMonitor | configureOutput | startOutput | stopOutput
  | setResponse | setSlate | forceMode | releaseMode | loadCoefficients | clearConditions | setMasks
  | identify | deviceClear | unknownCommand => exact cellRow_keepsOutputs h (fun s k => by simp [k]) _
  | malformedCommandWrite | commandOverrun | controlBlockWrite | passthrough | slateRegionWrite | ingestWrite
  | ingestRead | outputRead | refusedBurst | outputWindowWrite => exact busRow_keepsOutputs h _
  | ingestWriteResponse | forwardedResponse | slotRegionWriteResponse | slateWriteResponse
  | statusRecordWriteResponse | resultWordResponse | coefficientLoadCompletion | lineFillResponse
  | slateReadResponse => exact replyRow_keepsOutputs h _
  | memoryPortGrant => exact own (State.grant_outputsHold h)
  | lineBuildCompletion o => exact own (State.buildCompletion_outputsHold h o)
  | referencePulse r => exact own (State.referencePulse_outputsHold h r)
  | referenceAbsent r => exact own (act := State.referenceAbsent r) (by rw [State.referenceAbsent_outputs]; exact h)
  | underflow o => exact own (State.underflow_outputsHold h o)
  | lossTimerExpiry f => exact own (State.lossExpiry_outputsHold h f)
  | powerUp | resetLine => exact Answer.next_keepsOutputs (State.enterReset_outputsHold _ s)
  | resetRelease straps => exact execResetRelease_keepsOutputs h straps
  | tick =>
    exact own (act := fun s => s.settleTick.advance) (State.advance_outputsHold (State.settleTick_outputsHold h))

end rows

/-- Settles O57: a pulse and a stop keep the rules of the output that they act on, and every other operation leaves
what the rules speak of as it is. -/
theorem everyStepKeepsTheOutputs : Obligations.EveryStepKeepsTheOutputs := by
  intro s t holds next
  cases queue : s.pending with
  | nil =>
    rw [step_of_pending_nil queue] at next
    cases next
    exact holds
  | cons c rest =>
    rw [step_of_pending_cons queue] at next
    exact State.outputsHold_iff.2
      (exec_keepsOutputs (s := { s with pending := rest }) (State.outputsHold_iff.1 holds) c t next)

end Sys2Proof.Machine
end

section
/-! The limits (R108, R157, R161), the requests of class 3 (R83, R162), the coefficient tables (R93), the numbers of
the bursts and the address map (R147) through the operations that open no burst, grant none and configure nothing. -/

namespace Sys2Proof.Machine

/-! ### Class 3 -/

/-- At most one waiting request for each status record, and at most one for each place of a trace ring (R83, R162). -/
def RequestsOnce (q : List Housekeeping) : Prop :=
  (∀ r : RecordSel, (q.filter fun h => h = .record r).length ≤ 1) ∧
    ∀ (o : OutId) (i : Nat), (q.filter fun h => h.isTrace o i).length ≤ 1

theorem State.requestsOnce_iff {s : State} : s.requestsOnce ↔ RequestsOnce s.class3 := Iff.rfl

theorem filter_length_le_one_append {α : Type} {p : α → Bool} {q : List α} {x : α} (once : (q.filter p).length ≤ 1)
    (new : p x = true → ∀ y ∈ q, p y = false) : ((q ++ [x]).filter p).length ≤ 1 := by
  by_cases named : p x = true
  · have none : q.filter p = [] := List.filter_eq_nil_iff.2 fun y m => by simp [new named y m]
    simp [List.filter_append, none, named]
  · simpa [List.filter_append, named] using once

/-- A new request joins class 3: of another kind, or the first for its record. -/
theorem RequestsOnce.append {q : List Housekeeping} (h : RequestsOnce q) {x : Housekeeping}
    (records : ∀ r, x = .record r → x ∉ q) (traces : ∀ o i, x.isTrace o i = true → ∀ y ∈ q, y.isTrace o i = false) :
    RequestsOnce (q ++ [x]) := by
  refine ⟨fun r => filter_length_le_one_append (h.1 r) ?_, fun o i => filter_length_le_one_append (h.2 o i) (traces o i)⟩
  intro named y m
  have new : x = .record r := by simpa using named
  have absent := records r new
  simp only [decide_eq_false_iff_not]
  rintro rfl
  exact absent (new ▸ m)

/-- Requests that are all images of waiting ones of the same record or place keep the rule. -/
theorem RequestsOnce.filterMap {q : List Housekeeping} (h : RequestsOnce q) {g : Housekeeping → Option Housekeeping}
    (records : ∀ x r, g x = some (.record r) → x = .record r)
    (traces : ∀ x y o i, g x = some y → y.isTrace o i = true → x.isTrace o i = true) : RequestsOnce (q.filterMap g) := by
  have fewer (p : Housekeeping → Bool) (from_ : ∀ x y, g x = some y → p y = true → p x = true) :
      ((q.filterMap g).filter p).length ≤ (q.filter p).length := by
    simp only [← List.countP_eq_length_filter, List.countP_filterMap]
    refine List.countP_mono_left fun x _ named => ?_
    cases image : g x with
    | none => simp [image] at named
    | some y => exact from_ x y image (by simpa [image] using named)
  refine ⟨fun r => (fewer _ fun x y image named => ?_).trans (h.1 r), fun o i =>
    (fewer _ fun x y image named => traces x y o i image named).trans (h.2 o i)⟩
  have named : y = .record r := by simpa using named
  simpa using records x r (named ▸ image)

theorem RequestsOnce.tail {x : Housekeeping} {q : List Housekeeping} (h : RequestsOnce (x :: q)) : RequestsOnce q :=
  ⟨fun r => ((List.sublist_cons_self x q).filter _).length_le.trans (h.1 r),
    fun o i => ((List.sublist_cons_self x q).filter _).length_le.trans (h.2 o i)⟩

theorem State.mark_requestsOnce {s : State} (h : RequestsOnce s.class3) (r : RecordSel) :
    RequestsOnce (s.mark r).class3 := by
  unfold State.mark
  split
  · exact h
  · next absent =>
    refine h.append (fun _ _ => absent) ?_
    rintro o i ⟨⟩

theorem State.queueTrace_requestsOnce {s : State} (h : RequestsOnce s.class3) (o : OutId) (i : Nat)
    (bytes : List Byte) : RequestsOnce (s.queueTrace o i bytes).class3 := by
  have isTrace : ∀ q j, (Housekeeping.trace o i bytes).isTrace q j = true ↔ o = q ∧ i = j := by
    simp [Housekeeping.isTrace]
  unfold State.queueTrace
  split
  · simp only [← List.filterMap_eq_map]
    refine h.filterMap (fun x r image => ?_) (fun x y q j image named => ?_)
    · simp only [Function.comp_apply, Option.some.injEq] at image
      split at image
      · cases image
      · exact image
    · simp only [Function.comp_apply, Option.some.injEq] at image
      split at image
      · next same =>
        subst image
        obtain ⟨rfl, rfl⟩ := (isTrace q j).1 named
        exact same
      · exact image ▸ named
  · next none =>
    refine h.append (by rintro r ⟨⟩) fun q j named y m => ?_
    obtain ⟨rfl, rfl⟩ := (isTrace q j).1 named
    simpa using List.any_eq_false.1 (by simpa using none) y m

/-! ### The address map -/

theorem State.addressMap_eq (s : State) :
    s.addressMap = ⟨.control, s.controlBase / 4096, Config.controlPages⟩ ::
      (allFeeds.flatMap (fun f => (s.feeds[f].config.map (feedEntries f)).getD []) ++
        allOutputs.flatMap fun o => outputEntries o s.outputs[o]) := by
  unfold State.addressMap
  congr 3
  funext f
  split <;> simp_all

/-- The address map follows the straps, the feeds' windows and slot regions, and the outputs' windows and slate
regions alone. -/
theorem State.addressMap_congr {s t : State} (strap : t.strap = s.strap)
    (feeds : ∀ f : FeedId, t.feeds[f].config.map (feedEntries f) = s.feeds[f].config.map (feedEntries f))
    (outputs : ∀ o : OutId, outputEntries o t.outputs[o] = outputEntries o s.outputs[o]) :
    t.addressMap = s.addressMap := by
  simp only [State.addressMap_eq, State.controlBase, strap, feeds, outputs]

theorem outputEntries_congr {x y : Output} (o : OutId) (config : y.config = x.config)
    (page : y.modes.slatePage = x.modes.slatePage) : outputEntries o y = outputEntries o x := by
  unfold outputEntries
  rw [config, page]

/-- A write of an output that moves none of its regions keeps the map. -/
theorem State.addressMap_setOutput {o : OutId} {x : Output} {s : State} (config : x.config = s.outputs[o].config)
    (page : x.modes.slatePage = s.outputs[o].modes.slatePage) :
    State.addressMap { s with outputs := s.outputs.set o x } = s.addressMap :=
  State.addressMap_congr rfl (fun _ => rfl) fun q => by
    by_cases same : q = o
    · subst same
      exact outputEntries_congr q (by simpa using config) (by simpa using page)
    · exact congrArg (outputEntries q) (vector_set_other s.outputs o q x same)

/-! ### The relation -/

/-- What an operation leaves of the limits when it opens no burst, grants none and configures nothing: bursts and
queued reads only leave, and the tables and the address map stay. -/
structure State.Retains (s t : State) : Prop where
  resetting : t.resetting = s.resetting
  reads : (t.reads.map (·.serial)).Sublist (s.reads.map (·.serial))
  writes : (t.writes.map (·.serial)).Sublist (s.writes.map (·.serial))
  serial : t.nextSerial = s.nextSerial
  granted : t.granted.length ≤ s.granted.length
  queues : ∀ o : OutId, t.outputs[o].builder.queue.length ≤ s.outputs[o].builder.queue.length
  class3 : RequestsOnce s.class3 → RequestsOnce t.class3
  tables : ∀ k : BankId, t.banks[k].table = s.banks[k].table
  map : t.addressMap = s.addressMap

namespace State.Retains

theorem trans {s t u : State} (h : s.Retains t) (k : t.Retains u) : s.Retains u where
  resetting := k.resetting.trans h.resetting
  reads := k.reads.trans h.reads
  writes := k.writes.trans h.writes
  serial := k.serial.trans h.serial
  granted := k.granted.trans h.granted
  queues o := (k.queues o).trans (h.queues o)
  class3 := k.class3 ∘ h.class3
  tables i := (k.tables i).trans (h.tables i)
  map := k.map.trans h.map

/-- An operation that touches none of the pieces that the limits speak of, but class 3. -/
theorem of_kept {s t : State} (class3 : RequestsOnce s.class3 → RequestsOnce t.class3)
    (resetting : t.resetting = s.resetting := by simp) (strap : t.strap = s.strap := by simp)
    (feeds : t.feeds = s.feeds := by simp) (outputs : t.outputs = s.outputs := by simp)
    (banks : t.banks = s.banks := by simp) (granted : t.granted = s.granted := by simp)
    (reads : t.reads = s.reads := by simp) (writes : t.writes = s.writes := by simp)
    (serial : t.nextSerial = s.nextSerial := by simp) : s.Retains t where
  resetting := resetting
  reads := by rw [reads]
  writes := by rw [writes]
  serial := serial
  granted := by rw [granted]
  queues o := by rw [outputs]
  class3 := class3
  tables k := by rw [banks]
  map := State.addressMap_congr strap (fun f => by rw [feeds]) (fun o => by rw [outputs])

theorem refl (s : State) : s.Retains s := of_kept id

theorem foldl {α : Type} {g : State → α → State} (h : ∀ (s : State) (a : α), s.Retains (g s a)) :
    ∀ (l : List α) (s : State), s.Retains (l.foldl g s)
  | [], s => refl s
  | a :: l, s => (h s a).trans (foldl h l (g s a))

end State.Retains

/-! ### The shared operations -/

theorem State.mark_retains (r : RecordSel) (s : State) : s.Retains (s.mark r) :=
  .of_kept fun h => State.mark_requestsOnce h r

theorem State.markAll_retains (s : State) : s.Retains s.markAll :=
  .foldl (fun s r => s.mark_retains r) _ s

theorem State.putDeviceWord_retains (w : Conds) (s : State) : s.Retains (s.putDeviceWord w) := by
  have written (word : Conds) (notice : Bool) : s.Retains { s with deviceWord := word, notice := notice } :=
    .of_kept id
  unfold State.putDeviceWord
  dsimp only
  split
  · exact written _ _
  · exact (written _ _).trans (State.mark_retains .device _)

theorem State.setDevice_retains (c : Conds) (s : State) : s.Retains (s.setDevice c) := s.putDeviceWord_retains _

/-- The marks and the notice line that follow the write of a feed (R189 to R197). -/
theorem State.putFeed_announces (f : FeedId) (x : Feed) (s : State) :
    State.Retains { s with feeds := s.feeds.set f x } (s.putFeed f x) := by
  unfold State.putFeed
  dsimp only
  split
  · exact State.putDeviceWord_retains _ _
  · exact (State.mark_retains _ _).trans (State.putDeviceWord_retains _ _)

theorem State.putFeed_retains {f : FeedId} {x : Feed} {s : State}
    (config : x.config.map (feedEntries f) = s.feeds[f].config.map (feedEntries f)) : s.Retains (s.putFeed f x) := by
  have written : s.Retains { s with feeds := s.feeds.set f x } :=
    { (Retains.refl s) with
      map := State.addressMap_congr rfl (fun g => by
        by_cases same : g = f
        · rw [same, ← config]
          simp
        · have kept : (s.feeds.set f x)[g] = s.feeds[g] := vector_set_other _ _ _ _ same
          rw [kept]) fun _ => rfl }
  exact written.trans (s.putFeed_announces f x)

theorem State.modifyFeed_retains {f : FeedId} {g : Feed → Feed} {s : State}
    (config : (g s.feeds[f]).config = s.feeds[f].config) : s.Retains (s.modifyFeed f g) :=
  State.putFeed_retains (by rw [config])

/-- The marks and the notice line that follow the write of an output. -/
theorem State.putOutput_announces (o : OutId) (x : Output) (s : State) :
    State.Retains { s with outputs := s.outputs.set o x } (s.putOutput o x) := by
  unfold State.putOutput
  dsimp only
  split
  · exact State.putDeviceWord_retains _ _
  · exact (State.mark_retains _ _).trans (State.putDeviceWord_retains _ _)

theorem State.putOutput_retains {o : OutId} {x : Output} {s : State} (config : x.config = s.outputs[o].config)
    (page : x.modes.slatePage = s.outputs[o].modes.slatePage)
    (queue : x.builder.queue.length ≤ s.outputs[o].builder.queue.length) : s.Retains (s.putOutput o x) := by
  have written : s.Retains { s with outputs := s.outputs.set o x } :=
    { (Retains.refl s) with
      queues := fun q => by
        by_cases same : q = o
        · rw [same]
          simpa using queue
        · exact (congrArg (fun y : Output => y.builder.queue.length) (vector_set_other s.outputs o q x same)).le
      map := State.addressMap_setOutput config page }
  exact written.trans (s.putOutput_announces o x)

theorem State.modifyOutput_retains {o : OutId} {g : Output → Output} {s : State}
    (config : (g s.outputs[o]).config = s.outputs[o].config)
    (page : (g s.outputs[o]).modes.slatePage = s.outputs[o].modes.slatePage)
    (queue : (g s.outputs[o]).builder.queue.length ≤ s.outputs[o].builder.queue.length) :
    s.Retains (s.modifyOutput o g) := State.putOutput_retains config page queue

theorem State.modifyBuilder_retains {o : OutId} {g : LineBuilder → LineBuilder} {s : State}
    (queue : (g s.outputs[o].builder).queue.length ≤ s.outputs[o].builder.queue.length) :
    s.Retains (s.modifyBuilder o g) := State.modifyOutput_retains rfl rfl queue

theorem State.modifyContexts_retains (o : OutId) (g : Contexts → Contexts) (s : State) :
    s.Retains (s.modifyContexts o g) := State.modifyOutput_retains rfl rfl le_rfl

theorem State.modifyModes_retains {o : OutId} {g : Modes → Modes} {s : State}
    (page : (g s.outputs[o].modes).slatePage = s.outputs[o].modes.slatePage) : s.Retains (s.modifyModes o g) :=
  State.modifyOutput_retains rfl page le_rfl

theorem State.putCell_retains (c : CellId) (x : Cell) (s : State) : s.Retains (s.putCell c x) := by
  have written : s.Retains { s with cells := s.cells.set c x } := .of_kept id
  unfold State.putCell
  dsimp only
  split
  · exact written
  · exact written.trans (State.mark_retains _ _)

/-- A result word or a table read joins class 3. -/
theorem State.appendRequest_retains {h : Housekeeping} (s : State) (record : ∀ r, h ≠ .record r)
    (trace : ∀ o i, h.isTrace o i = false) : s.Retains { s with class3 := s.class3 ++ [h] } :=
  .of_kept fun once => once.append (fun r e => absurd e (record r)) fun o i e => by simp [trace o i] at e

theorem State.requestResult_retains (c : CellId) (s : State) : s.Retains (s.requestResult c) := by
  unfold State.requestResult
  split
  · exact .refl s
  · split
    · exact (s.putCell_retains c _).trans (State.appendRequest_retains _ (by simp) (fun _ _ => rfl))
    · exact .refl s

theorem State.settle_retains (c : CellId) (r : ResultCode) (d : Byte) (s : State) : s.Retains (s.settle c r d) := by
  unfold State.settle
  split
  · exact .refl s
  · exact (s.putCell_retains c _).trans (State.requestResult_retains c _)

theorem State.queueTrace_retains (o : OutId) (i : Nat) (bytes : List Byte) (s : State) :
    s.Retains (s.queueTrace o i bytes) := by
  have class3 (h : RequestsOnce s.class3) := State.queueTrace_requestsOnce h o i bytes
  refine .of_kept class3 ?_ ?_ ?_ ?_ ?_ ?_ ?_ ?_ ?_ <;> (unfold State.queueTrace; split <;> rfl)

theorem State.notify_retains (p : CacheKey → Bool) (s : State) : s.Retains (s.notify p) := .of_kept (by simp)

theorem State.request1_retains (o : OutId) (fs : List Fetch) (s : State) : s.Retains (s.request1 o fs) :=
  .of_kept (by simp)

theorem State.putHeld_retains (b : Burst) (x : Option Burst) (s : State) : s.Retains (s.putHeld b x) :=
  .of_kept (by simp)

theorem State.putRef_retains (r : Ref) (x : RefInput) (s : State) : s.Retains (s.putRef r x) := by
  have written : s.Retains (match r with | .refA => { s with refA := x } | .refB => { s with refB := x }) := by
    cases r <;> exact .of_kept id
  unfold State.putRef
  dsimp only
  split
  · exact written
  · exact written.trans (State.mark_retains _ _)

/-! ### Answers -/

/-- Answers to accepted bursts, which keep their numbers. -/
theorem State.Retains.of_answered {s : State} {reads : List ReadTxn} {writes : List WriteTxn} {out : List BusOut}
    (r : (reads.map (·.serial)).Sublist (s.reads.map (·.serial)))
    (w : (writes.map (·.serial)).Sublist (s.writes.map (·.serial))) :
    s.Retains { s with reads := reads, writes := writes, busOut := out } :=
  { (Retains.refl s) with reads := r, writes := w, map := rfl }

theorem serials_map {g : ReadTxn → ReadTxn} (h : ∀ t, (g t).serial = t.serial) (l : List ReadTxn) :
    (l.map g).map (·.serial) = l.map (·.serial) := by simp [Function.comp_def, h]

theorem State.answerRead_retains (n : Nat) (beats : List ReadBeat) (s : State) : s.Retains (s.answerRead n beats) :=
  .of_answered (out := s.busOut)
    (by rw [serials_map fun t => by split <;> rfl]) (.refl _)

theorem State.answerBeat_retains (n : Nat) (data : List Byte) (last : Bool) (s : State) :
    s.Retains (s.answerBeat n data last) :=
  .of_answered (out := s.busOut)
    (by rw [serials_map fun t => by split <;> rfl]) (.refl _)

theorem State.answerWrite_retains (n : Nat) (resp : Resp) (s : State) : s.Retains (s.answerWrite n resp) := by
  refine .of_answered (out := s.busOut) (.refl _) ?_
  have kept (t : WriteTxn) : (if t.serial = n then { t with resp := some resp } else t).serial = t.serial := by
    split <;> rfl
  simp [Function.comp_def, kept]

theorem sendReads_sublist : ∀ (blocked : List (BitVec 8)) (l : List ReadTxn), (sendReads blocked l).1.Sublist l
  | _, [] => .refl []
  | blocked, t :: l => by
    unfold sendReads
    split
    · exact (sendReads_sublist _ l).cons t
    · exact (sendReads_sublist _ l).cons_cons t

theorem sendWrites_sublist : ∀ (blocked : List (BitVec 8)) (l : List WriteTxn), (sendWrites blocked l).1.Sublist l
  | _, [] => .refl []
  | blocked, t :: l => by
    unfold sendWrites
    split
    · split
      · exact (sendWrites_sublist _ l).cons t
      · exact (sendWrites_sublist _ l).cons_cons t
    · exact (sendWrites_sublist _ l).cons_cons t

theorem State.flush_retains (s : State) : s.Retains s.flush :=
  .of_answered ((sendReads_sublist _ _).map _) ((sendWrites_sublist _ _).map _)

end Sys2Proof.Machine
end

section
/-! The limits through the blocks: the Line Builder, the Phase Unit, the Ingest Tracker, the Timing Generator and the
commands that configure nothing. -/

namespace Sys2Proof.Machine

open State (Retains)

/-! ### The Line Builder -/

theorem State.lookup_retains (o : OutId) (b : Build) (k : CacheKey) (s : State) : s.Retains (s.lookup o b k).1 := by
  have written (c : Cache) : s.Retains { s with cache := c } := .of_kept id
  unfold State.lookup
  split
  · exact written _
  · exact (written _).trans (State.request1_retains o _ _)
  · exact .refl s

theorem State.lookupAll_retains (o : OutId) (b : Build) : ∀ (ks : List CacheKey) (s : State),
    s.Retains (s.lookupAll o b ks).1
  | [], s => .refl s
  | k :: ks, s => (s.lookup_retains o b k).trans (State.lookupAll_retains o b ks _)

theorem State.conceal_retains (o : OutId) (s : State) : s.Retains (s.conceal o) := by
  unfold State.conceal
  split
  · exact .refl s
  · split
    · exact (State.lookupAll_retains o _ _ s).trans (State.modifyBuilder_retains le_rfl)
    · exact .refl s

theorem State.startBuild_retains (o : OutId) (y : Nat) (s : State) : s.Retains (s.startBuild o y) := by
  unfold State.startBuild
  dsimp only
  split
  · exact .refl s
  · split
    · split
      · exact (State.lookupAll_retains o _ _ s).trans (State.modifyOutput_retains rfl rfl le_rfl)
      · exact .refl s
    · exact .refl s

theorem State.answerHead_retains (o : OutId) (bytes : List Byte) (touched : Option (Fin 2)) (s : State) :
    s.Retains (s.answerHead o bytes touched) := by
  unfold State.answerHead
  split
  · exact .refl s
  · next q qs queue =>
    refine (s.answerBeat_retains _ bytes _).trans (State.modifyBuilder_retains ?_)
    rw [State.answerBeat_outputs, queue]
    dsimp only
    split <;> simp

theorem State.offerSlate_retains (w : WaitingSlate) (s : State) : s.Retains (s.offerSlate w) := by
  unfold State.offerSlate
  split
  · exact .of_kept id
  · exact s.request1_retains _ _

theorem State.releaseSlate_retains (s : State) : s.Retains s.releaseSlate :=
  have cleared : s.Retains { s with waitingSlate := [] } := .of_kept id
  cleared.trans (.foldl (fun s w => s.offerSlate_retains w) _ _)

theorem State.startRun_retains (o : OutId) (page : Page) (s : State) : s.Retains (s.startRun o page) := by
  unfold State.startRun
  split
  · exact (State.modifyBuilder_retains le_rfl).trans (.foldl (fun s _ => s.offerSlate_retains _) _ _)
  · exact .refl s

theorem State.serve_retains (o : OutId) : ∀ (n : Nat) (s : State), s.Retains (State.serve n o s)
  | 0, s => .refl s
  | n + 1, s => by
    unfold State.serve
    split
    · exact .refl s
    · split
      · exact .refl s
      · split
        · exact (s.answerHead_retains o _ _).trans (State.serve_retains o n _)
        · exact .refl s
        · exact s.startBuild_retains o _
        · exact s.startRun_retains o _

theorem State.takeHead_retains (o : OutId) (s : State) : s.Retains (s.takeHead o) := State.serve_retains o _ s

theorem State.answerRun_retains (o : OutId) (r : SlateRun) : ∀ (n : Nat) (s : State),
    s.Retains (State.answerRun n o r s)
  | 0, s => .refl s
  | n + 1, s => by
    unfold State.answerRun
    split
    · exact .refl s
    · exact (s.answerHead_retains o _ _).trans (State.answerRun_retains o r n _)

theorem State.slateAnswer_retains (o : OutId) (i : Nat) (beats : List ReadBeat) (s : State) :
    s.Retains (s.slateAnswer o i beats) := by
  unfold State.slateAnswer
  split
  · exact .refl s
  · generalize (if anyError beats then none else some (beatData beats)) = got
    dsimp only
    split
    · have counted (failed : Bool) : s.Retains (s.modifyOutput o fun x => if failed then x.fetchFailed else x) := by
        cases failed
        · exact State.modifyOutput_retains rfl rfl le_rfl
        · exact State.modifyOutput_retains rfl rfl le_rfl
      exact (((counted _).trans (State.answerRun_retains o _ _ _)).trans
        (State.modifyBuilder_retains le_rfl)).trans (State.takeHead_retains o _)
    · exact State.modifyBuilder_retains le_rfl

theorem State.changePin_retains (g : Nat → Nat) (r : RecordRef) (s : State) : s.Retains (s.changePin g r) :=
  State.modifyFeed_retains rfl

theorem State.pin_retains (x : Context) (s : State) : s.Retains (s.pin x) :=
  .foldl (fun s r => s.changePin_retains _ r) _ s

theorem State.unpin_retains (x : Context) (s : State) : s.Retains (s.unpin x) :=
  .foldl (fun s r => s.changePin_retains _ r) _ s

theorem State.releaseRetired_retains (o : OutId) (s : State) : s.Retains (s.releaseRetired o) := by
  unfold State.releaseRetired
  split
  · exact .refl s
  · split
    · exact (s.unpin_retains _).trans (State.modifyContexts_retains o _ _)
    · exact .refl s

theorem State.prefetch_retains (o : OutId) (y : Nat) (s : State) : s.Retains (s.prefetch o y) := by
  unfold State.prefetch
  split
  · exact s.startBuild_retains o y
  · exact .refl s

theorem LineBuilder.finish_queue (i : Fin 2) (bytes : List Byte) (lb : LineBuilder) :
    (lb.finish i bytes).queue = lb.queue := by
  unfold LineBuilder.finish
  split <;> rfl

theorem State.completeBuild_retains (o : OutId) (b : Build) (s : State) : s.Retains (s.completeBuild o b) := by
  have cached (t : State) (c : Cache) : t.Retains { t with cache := c } := .of_kept id
  unfold State.completeBuild
  dsimp only
  refine (((State.Retains.trans ?_ (cached _ _)).trans (State.releaseRetired_retains o _)).trans
    (State.takeHead_retains o _)).trans (State.prefetch_retains o _ _)
  split
  · exact (State.modifyOutput_retains rfl rfl (congrArg List.length (LineBuilder.finish_queue _ _ _)).le).trans
      (State.mark_retains _ _)
  · exact State.modifyOutput_retains rfl rfl (congrArg List.length (LineBuilder.finish_queue _ _ _)).le

theorem State.buildCompletion_retains (o : OutId) (s : State) : s.Retains (s.buildCompletion o) := by
  unfold State.buildCompletion
  split
  · exact .refl s
  · split
    · exact (s.completeBuild_retains o _).trans (State.flush_retains _)
    · exact .refl s

theorem State.fillAnswer_retains (e : EntryId) (beats : List ReadBeat) (s : State) :
    s.Retains (s.fillAnswer e beats) := by
  have written (c : Cache) : s.Retains { s with cache := c } := .of_kept id
  unfold State.fillAnswer
  dsimp only
  split
  · exact written _
  · refine (written _).trans (.foldl (fun s o => ?_) _ _)
    split
    · split
      · exact s.conceal_retains o
      · exact .refl s
    · exact .refl s

theorem State.blackOut_retains (o : OutId) (s : State) : s.Retains (s.blackOut o) := by
  unfold State.blackOut
  split
  · exact .refl s
  · exact .foldl (fun s q => .of_answered (out := s.busOut)
      (by rw [serials_map fun t => by split <;> rfl]) (.refl _)) _ _

/-! ### The Phase Unit -/

theorem State.retire_retains (o : OutId) (x : Context) (s : State) : s.Retains (s.retire o x) := by
  have invalidated : s.Retains (s.modifyBuilder o (LineBuilder.invalidateFor x.id)) :=
    State.modifyBuilder_retains le_rfl
  unfold State.retire
  dsimp only
  split
  · exact invalidated.trans (State.unpin_retains x _)
  · exact invalidated.trans (State.modifyContexts_retains o _ _)

theorem State.dropHeld_retains (o : OutId) (p : Parity) (s : State) : s.Retains (s.dropHeld o p) := by
  unfold State.dropHeld
  split
  · exact .refl s
  · exact (s.modifyContexts_retains o _).trans (State.retire_retains o _ _)

theorem State.dropFrozen_retains (o : OutId) (s : State) : s.Retains (s.dropFrozen o) := by
  unfold State.dropFrozen
  split
  · exact .refl s
  · exact (s.unpin_retains _).trans (State.modifyContexts_retains o _ _)

theorem State.giveUpContexts_retains (o : OutId) (s : State) : s.Retains (s.giveUpContexts o) :=
  ((((s.dropHeld_retains o .whole).trans (State.dropHeld_retains o .top _)).trans
    (State.dropHeld_retains o .bottom _)).trans (State.dropFrozen_retains o _)).trans
    (State.modifyContexts_retains o _ _)

theorem State.refreeze_retains (o : OutId) (before : Mode) (s : State) : s.Retains (s.refreeze o before) := by
  unfold State.refreeze
  dsimp only
  split
  · unfold State.makeFrozen
    dsimp only
    split
    · exact .refl s
    · exact (s.pin_retains _).trans (State.modifyContexts_retains o _ _)
  · split
    · exact s.dropFrozen_retains o
    · exact .refl s

theorem Output.applyPending_keeps (x : Output) : x.applyPending.config = x.config ∧
    x.applyPending.modes.slatePage = x.modes.slatePage ∧ x.applyPending.builder = x.builder := by
  unfold Output.applyPending
  split <;> simp

theorem Modes.respond_slatePage (target : Option Mode) (m : Modes) : (m.respond target).slatePage = m.slatePage := by
  unfold Modes.respond
  split
  · rfl
  · split <;> rfl

theorem Modes.countHold_slatePage (m : Modes) : m.countHold.1.slatePage = m.slatePage := by
  simp only [Modes.countHold]
  generalize (if m.holdCount < m.holdLimit then m.holdCount + 1 else m.holdCount) = n
  split
  · rfl
  · split <;> rfl

theorem Output.hold_keeps (feed : FeedState) (x : Output) : (x.hold feed).config = x.config ∧
    (x.hold feed).modes.slatePage = x.modes.slatePage ∧ (x.hold feed).builder = x.builder := by
  unfold Output.hold
  split
  · exact ⟨rfl, rfl, rfl⟩
  · split
    · exact ⟨rfl, rfl, rfl⟩
    · dsimp only
      split
      · exact ⟨rfl, (Modes.respond_slatePage _ _).trans (Modes.countHold_slatePage _), rfl⟩
      · exact ⟨rfl, Modes.countHold_slatePage _, rfl⟩

theorem Modes.inject_slatePage (m : Modes) : m.inject.1.slatePage = m.slatePage := by
  unfold Modes.inject
  split
  · rfl
  · rfl
  · split <;> rfl
  · split
    · rfl
    · split <;> rfl

/-- A change of an output that keeps its configuration, its slate page and its builder. -/
theorem State.modifyOutput_retains_of_keeps {o : OutId} {g : Output → Output} (s : State)
    (keeps : ∀ x, (g x).config = x.config ∧ (g x).modes.slatePage = x.modes.slatePage ∧
      (g x).builder = x.builder) : s.Retains (s.modifyOutput o g) := by
  obtain ⟨config, page, builder⟩ := keeps s.outputs[o]
  exact State.modifyOutput_retains config page (by rw [builder])

theorem State.frameWork_retains (o : OutId) (c : OutputConfig) (p : Pulse) (s : State) :
    s.Retains (s.frameWork o c p) := by
  unfold State.frameWork
  split
  · unfold State.frameBoundary
    exact (((s.modifyOutput_retains_of_keeps Output.applyPending_keeps).trans
      (State.refreeze_retains o _ _)).trans (State.modifyOutput_retains_of_keeps _ (Output.hold_keeps _))).trans
      (State.modifyOutput_retains_of_keeps _ fun x => ⟨rfl, Modes.inject_slatePage _, rfl⟩)
  · exact .refl s

theorem Output.latched_keeps (y : Context) (sel : Selection) (old : Option Context) (x : Output) :
    ((x.publish old).latched y sel).config = x.config ∧
      ((x.publish old).latched y sel).modes.slatePage = x.modes.slatePage ∧
      ((x.publish old).latched y sel).builder = x.builder := by
  cases old <;> exact ⟨rfl, rfl, rfl⟩

theorem State.latch_retains (o : OutId) (p : Pulse) (s : State) : s.Retains (s.latch o p) := by
  have installed (c : OutputConfig) (x : Context) :
      s.Retains (((s.frameWork o c p).pin x).modifyContexts o (Contexts.install x p)) :=
    ((s.frameWork_retains o c p).trans (State.pin_retains x _)).trans (State.modifyContexts_retains o _ _)
  unfold State.latch
  split
  · exact .refl s
  · dsimp only
    refine ((State.Retains.trans ?_
      (State.modifyOutput_retains_of_keeps _ (Output.latched_keeps _ _ _))).trans
      (State.queueTrace_retains o _ _ _)).trans (State.mark_retains _ _)
    split
    · exact (installed _ _).trans (State.retire_retains o _ _)
    · exact installed _ _

/-! ### The Ingest Tracker -/

theorem Modes.feedEvent_slatePage (e : FeedEvent) (m : Modes) : (m.feedEvent e).slatePage = m.slatePage := by
  have responded := Modes.respond_slatePage (m.table.target e) m
  cases e with
  | locked =>
    simp only [Modes.feedEvent, Modes.startOneShot]
    split <;> exact responded
  | lost => exact responded
  | seeking fromLost => cases fromLost <;> exact responded

theorem State.feedEvent_retains (f : FeedId) (e : FeedEvent) (s : State) : s.Retains (s.feedEvent f e) :=
  .foldl (fun s o => by
    split
    · exact State.modifyModes_retains (Modes.feedEvent_slatePage e _)
    · exact .refl s) _ s

theorem Feed.settleFrame_config (c : FeedConfig) (x : Feed) : (x.settleFrame c).feed.config = x.config := by
  unfold Feed.settleFrame
  split <;> rfl

theorem Feed.settle_config (c : FeedConfig) (a : Anchor) (p : Parity) (x : Feed) :
    (x.settle c a p).feed.config = x.config := by
  cases a with
  | frame => exact x.settleFrame_config c
  | second =>
    simp only [Feed.settle, Feed.settleSecond]
    split
    · split
      · rfl
      · exact x.settleFrame_config c
    · rfl
    · exact x.settleFrame_config c

theorem State.anchor_retains (f : FeedId) (c : FeedConfig) (a : Anchor) (p : Parity) (s : State) :
    s.Retains (s.anchor f c a p) := by
  have config (t : State) (feeds : t.feeds = s.feeds) :
      t.Retains (t.putFeed f (s.feeds[f].anchored c a p s.tick).1) :=
    State.putFeed_retains (by
      rw [feeds]
      exact congrArg _ (Feed.settle_config c a p _))
  unfold State.anchor
  dsimp only
  refine State.Retains.trans ?_ (.foldl (fun s e => s.feedEvent_retains f e) _ _)
  split
  · exact (s.notify_retains _).trans (config _ (State.notify_feeds _ _))
  · exact config s rfl

theorem State.takeAnchor_retains (f : FeedId) (c : FeedConfig) (x : Nat) (s : State) :
    s.Retains (s.takeAnchor f c x) := by
  unfold State.takeAnchor
  split
  · exact .refl s
  · split
    · exact s.anchor_retains f c _ _
    · exact .refl s

theorem State.ingestResponse_retains (a : IngestAccount) (resp : Resp) (s : State) :
    s.Retains (s.ingestResponse a resp) := by
  unfold State.ingestResponse
  refine State.Retains.trans ?_ (.foldl (fun s _ => s.notify_retains _) _ _)
  split
  · exact State.modifyFeed_retains rfl
  · exact State.modifyFeed_retains rfl

theorem State.enterLost_retains (f : FeedId) (s : State) : s.Retains (s.enterLost f) :=
  (State.modifyFeed_retains rfl).trans (State.feedEvent_retains f .lost _)

/-! ### The Timing Generator -/

theorem State.referenceAbsent_retains (r : Ref) (s : State) : s.Retains (s.referenceAbsent r) := by
  unfold State.referenceAbsent
  split
  · exact (s.putRef_retains r _).trans (State.setDevice_retains _ _)
  · exact .refl s

theorem State.loadGenerator_retains (o : OutId) (g : Generator) (s : State) : s.Retains (s.loadGenerator o g) :=
  State.modifyOutput_retains rfl rfl le_rfl

theorem State.setOutputCond_retains (o : OutId) (c : Conds) (s : State) : s.Retains (s.setOutputCond o c) :=
  State.modifyOutput_retains rfl rfl le_rfl

theorem State.offerPulse_retains (r : Ref) (o : OutId) (s : State) : s.Retains (s.offerPulse r o) := by
  unfold State.offerPulse
  dsimp only
  split
  · exact .refl s
  · split
    · exact .refl s
    · split
      · exact .refl s
      · exact .refl s
      · refine (State.Retains.trans ?_ (State.latch_retains o _ _)).trans (State.loadGenerator_retains o _ _)
        exact State.modifyOutput_retains rfl rfl le_rfl
      · split
        · exact .refl s
        · exact ((s.latch_retains o _).trans (State.loadGenerator_retains o _ _)).trans
            (State.setOutputCond_retains o _ _)

theorem State.referencePulse_retains (r : Ref) (s : State) : s.Retains (s.referencePulse r) :=
  (s.putRef_retains r _).trans (.foldl (fun s o => s.offerPulse_retains r o) _ _)

theorem State.underflow_retains (o : OutId) (s : State) : s.Retains (s.underflow o) := by
  unfold State.underflow
  dsimp only
  split
  · exact .refl s
  · split
    · exact (s.latch_retains o _).trans (State.loadGenerator_retains o _ _)
    · exact .refl s

theorem State.lossExpiry_retains (f : FeedId) (s : State) : s.Retains (s.lossExpiry f) := by
  unfold State.lossExpiry
  split
  · exact s.enterLost_retains f
  · exact .refl s

theorem State.settleTick_retains (s : State) : s.Retains s.settleTick :=
  (((s.referenceAbsent_retains .refA).trans (State.referenceAbsent_retains .refB _)).trans
    (.foldl (fun s f => s.lossExpiry_retains f) _ _)).trans (.foldl (fun s o => s.underflow_retains o) _ _)

theorem Output.ticked_keeps (x : Output) :
    x.ticked.config = x.config ∧ x.ticked.modes = x.modes ∧ x.ticked.builder = x.builder := by
  unfold Output.ticked
  split <;> exact ⟨rfl, rfl, rfl⟩

theorem State.advance_retains (s : State) : s.Retains s.advance := by
  have ticked (o : OutId) : s.advance.outputs[o] = s.outputs[o].ticked := by simp [State.advance]
  exact { State.Retains.refl s with
    queues := fun o => by rw [ticked, (Output.ticked_keeps _).2.2]
    map := State.addressMap_congr rfl (fun f => by simp [State.advance, Feed.ticked]) fun o => by
      obtain ⟨config, modes, -⟩ := s.outputs[o].ticked_keeps
      rw [ticked]
      exact outputEntries_congr o config (by rw [modes]) }

/-! ### The arbiter and the responses -/

theorem State.setIdentify_retains (x : IdentifyStage) (c : CellId) (s : State) : s.Retains (s.setIdentify x c) := by
  unfold State.setIdentify
  split
  · exact .refl s
  · exact s.putCell_retains c _

theorem State.hostAnswered_retains (c : CellId) (s : State) : s.Retains (s.hostAnswered c) := by
  unfold State.hostAnswered
  split
  · exact .refl s
  · exact (s.putCell_retains c _).trans (State.requestResult_retains c _)

theorem State.busEffect_retains (r : Forwarded) (resp : Resp) (s : State) : s.Retains (s.busEffect r resp) := by
  unfold State.busEffect
  split
  · exact .refl s
  · exact .refl s
  · exact .foldl (fun s c => s.hostAnswered_retains c) _ s
  · exact .foldl (fun s _ => s.notify_retains _) _ s
  · exact s.releaseSlate_retains
  · exact s.ingestResponse_retains _ resp

theorem State.identified_retains (c : CellId) (s : State) : s.Retains (s.identified c) := by
  unfold State.identified
  split
  · exact .refl s
  · split
    · exact (s.setIdentify_retains _ c).trans (State.settle_retains c _ _ _)
    · exact .refl s

theorem State.resultWritten_retains (c : CellId) (s : State) : s.Retains (s.resultWritten c) := by
  unfold State.resultWritten
  split
  · exact .refl s
  · split
    · exact (s.putCell_retains c _).trans (State.requestResult_retains c _)
    · exact s.putCell_retains c none

theorem State.fetched_retains (o : OutId) (f : Fetch) (beats : List ReadBeat) (s : State) :
    s.Retains (s.fetched o f beats) := by
  cases f with
  | fill e => exact s.fillAnswer_retains e beats
  | slate i => exact (s.slateAnswer_retains o i beats).trans (State.flush_retains _)

/-! ### Commands -/

theorem State.feedEntries_map_threshold (f : FeedId) (n : Nat) (x : Feed) :
    (x.rearmed n).config.map (feedEntries f) = x.config.map (feedEntries f) := by
  cases config : x.config <;> simp [Feed.rearmed, config, feedEntries, FeedConfig.windowSize]

theorem State.beginLoad_retains (k : BankId) (c : CellId) (page : Page) (s : State) :
    s.Retains (s.beginLoad k c page) := by
  have requested := s.appendRequest_retains (h := .table k page) (by simp) (fun _ _ => rfl)
  exact { requested with
    tables := fun j => by
      by_cases same : j = k
      · subst same
        simp [State.beginLoad]
      · exact congrArg Bank.table (vector_set_other s.banks k j _ same)
    map := requested.map }

theorem State.stopRunning_retains (o : OutId) (s : State) : s.Retains (s.stopRunning o) := by
  have invalidated (t : State) : t.Retains (t.modifyBuilder o LineBuilder.invalidateAll) :=
    State.modifyBuilder_retains le_rfl
  unfold State.stopRunning
  refine ((((State.Retains.trans ?_ (State.giveUpContexts_retains o _)).trans (invalidated _)).trans
    (State.takeHead_retains o _)).trans (State.flush_retains _))
  exact State.modifyOutput_retains rfl rfl le_rfl

theorem State.clearWord_retains (r : RecordSel) (snapshot mask : Conds) (s : State) :
    s.Retains (s.clearWord r snapshot mask) := by
  have conflicted (b : Bool) (t : State) (h : s.Retains t) :
      s.Retains (if b then t.setDevice clearConflict else t) := by
    cases b
    · exact h
    · exact h.trans (t.setDevice_retains _)
  cases r with
  | device => exact conflicted _ _ (s.putDeviceWord_retains _)
  | feed f => exact conflicted _ _ (State.modifyFeed_retains rfl)
  | output o => exact conflicted _ _ (State.modifyOutput_retains rfl rfl le_rfl)

theorem State.setMask_retains (r : RecordSel) (mask : Conds) (s : State) : s.Retains (s.setMask r mask) := by
  have written (t : State) : t.Retains { t with deviceMask := mask &&& deviceMaskBits } := .of_kept id
  cases r with
  | device => exact ((s.mark_retains _).trans (written _)).trans (State.putDeviceWord_retains _ _)
  | feed f =>
    rw [State.setMask]
    refine (s.mark_retains (.feed f)).trans ?_
    exact State.modifyFeed_retains rfl
  | output o =>
    rw [State.setMask]
    refine (s.mark_retains (.output o)).trans ?_
    exact State.modifyOutput_retains rfl rfl le_rfl

theorem State.identify_retains (w : CellWrite) (s : State) : s.Retains (s.identify w) := by
  unfold State.identify
  split
  · exact .refl s
  · exact (s.putCell_retains _ _).trans (State.mark_retains _ _)

theorem State.abortCells_retains (c : CellId) (s : State) : s.Retains (s.abortCells c) :=
  .foldl (fun s d => by
    split
    · exact .refl s
    · exact (s.putCell_retains d _).trans (State.requestResult_retains d _)) _ s

end Sys2Proof.Machine
end

section
/-! The address map (R147): its entries bear distinct regions, and a region placed by a command meets no other (R171). -/

namespace Sys2Proof.Machine

/-! ### The entries of the map -/

/-- Two regions share no page, or are one shared slate region (R147, R171). -/
def MapEntry.Clear (e d : MapEntry) : Prop := e.overlaps d = false ∨ e.sharesSlate d = true

theorem MapEntry.Clear.symm {e d : MapEntry} (h : e.Clear d) : d.Clear e := by
  simp only [MapEntry.Clear, MapEntry.overlaps, MapEntry.sharesSlate, Bool.and_eq_false_iff, Bool.and_eq_true,
    decide_eq_true_eq, decide_eq_false_iff_not] at *
  omega

/-- The regions that the map can hold, in its order. -/
def Region.all : List Region :=
  .control :: (allFeeds.flatMap (fun f => [.ingest f, .slots f]) ++ allOutputs.flatMap fun o => [.window o, .slate o])

theorem flatMap_sublist {α β : Type} {g h : α → List β} (sub : ∀ a, (g a).Sublist (h a)) :
    ∀ l : List α, (l.flatMap g).Sublist (l.flatMap h)
  | [] => .refl _
  | a :: l => (sub a).append (flatMap_sublist sub l)

theorem State.addressMap_regions (s : State) : (s.addressMap.map (·.region)).Sublist Region.all := by
  rw [State.addressMap_eq, List.map_cons, List.map_append, List.map_flatMap, List.map_flatMap]
  refine ((flatMap_sublist (fun f => ?_) _).append (flatMap_sublist (fun o => ?_) _)).cons_cons _
  · cases s.feeds[f].config <;> simp [feedEntries]
  · unfold outputEntries
    split
    · simp
    · split <;> simp [windowEntry, slateEntry]

theorem State.addressMap_nodup (s : State) : s.addressMap.Nodup :=
  List.Nodup.of_map _ ((by decide : Region.all.Nodup).sublist s.addressMap_regions)

theorem State.mapHolds_iff {s : State} : s.mapHolds ↔
    (∀ e ∈ s.addressMap, e.first + e.pages ≤ 2 ^ 28) ∧
      (∀ e ∈ s.addressMap, ∀ d ∈ s.addressMap, e ≠ d → e.Clear d) ∧
      (s.resetting = true → s.addressMap.length = 1) := by
  have symmetric : Std.Symm MapEntry.Clear := ⟨fun _ _ => MapEntry.Clear.symm⟩
  refine and_congr_right fun _ => and_congr_left fun _ => ⟨fun apart e me d md ne => ?_, fun apart => ?_⟩
  · exact List.Pairwise.forall (R := MapEntry.Clear) apart me md ne
  · exact s.addressMap_nodup.pairwise_of_forall_ne apart

theorem State.mem_addressMap {s : State} {e : MapEntry} : e ∈ s.addressMap ↔
    e = ⟨.control, s.controlBase / 4096, Config.controlPages⟩ ∨
      (∃ (f : FeedId) (c : FeedConfig), s.feeds[f].config = some c ∧ e ∈ feedEntries f c) ∨
      ∃ o : OutId, e ∈ outputEntries o s.outputs[o] := by
  have feeds (f : FeedId) : f ∈ allFeeds := by fin_cases f <;> simp [allFeeds]
  have outputs (o : OutId) : o ∈ allOutputs := by fin_cases o <;> simp [allOutputs]
  have feed (f : FeedId) : e ∈ (s.feeds[f].config.map (feedEntries f)).getD [] ↔
      ∃ c, s.feeds[f].config = some c ∧ e ∈ feedEntries f c := by
    cases s.feeds[f].config <;> simp
  simp only [State.addressMap_eq, List.mem_cons, List.mem_append, List.mem_flatMap, feeds, outputs, true_and, feed]

/-- The control block lies within the address space (R199). -/
theorem State.control_fits (s : State) : s.controlBase / 4096 + Config.controlPages ≤ 2 ^ 28 := by
  have small := s.strap.isLt
  simp only [State.controlBase, Config.controlPages]
  omega

/-- A map that holds the control block alone. -/
theorem State.mapHolds_of_alone {s : State} (alone : s.addressMap.length = 1) : s.mapHolds := by
  have control : (⟨.control, s.controlBase / 4096, Config.controlPages⟩ : MapEntry) ∈ s.addressMap :=
    State.mem_addressMap.2 (.inl rfl)
  obtain ⟨e, single⟩ := List.length_eq_one_iff.1 alone
  rw [single] at control
  obtain rfl := List.mem_singleton.1 control
  rw [State.mapHolds_iff, single]
  refine ⟨by simpa using s.control_fits, fun e me d md ne => absurd ?_ ne, fun _ => rfl⟩
  rw [List.mem_singleton.1 me, List.mem_singleton.1 md]

theorem State.addressMap_length_of_empty {s : State} (feeds : ∀ f : FeedId, s.feeds[f].config = none)
    (outputs : ∀ o : OutId, s.outputs[o].config = none) : s.addressMap.length = 1 := by
  have entries (o : OutId) : outputEntries o s.outputs[o] = [] := by
    unfold outputEntries
    rw [outputs]
  simp only [State.addressMap_eq, feeds, entries]
  rfl

/-! ### Placing a region (R171) -/

theorem MapEntry.meets_eq_none {others : List MapEntry} {e : MapEntry} :
    e.meets others = none ↔ e.first + e.pages ≤ 2 ^ 28 ∧ ∀ d ∈ others, e.Clear d := by
  unfold MapEntry.meets
  split
  · next far => simp only [reduceCtorEq, Nat.not_le.2 far, false_and]
  · next near =>
    simp only [Nat.not_lt.1 near, true_and, List.min?_eq_none_iff, List.map_eq_nil_iff, List.filter_eq_nil_iff]
    refine forall₂_congr fun d _ => ?_
    cases h : e.overlaps d <;> cases k : e.sharesSlate d <;> simp [MapEntry.Clear, h, k]

theorem State.mem_mapWithout {own : Region → Bool} {s : State} {e : MapEntry} :
    e ∈ s.mapWithout own ↔ e ∈ s.addressMap ∧ own e.region = false := by
  simp [State.mapWithout]

/-- Entries placed clear of the rest of the map and of each other keep the map's rule. -/
theorem State.mapHolds_of_placed {own : Region → Bool} {new : List MapEntry} {s t : State} (h : s.mapHolds)
    (running : t.resetting = false) (map : ∀ e ∈ t.addressMap, e ∈ new ∨ e ∈ s.mapWithout own)
    (fits : ∀ e ∈ new, e.first + e.pages ≤ 2 ^ 28) (others : ∀ e ∈ new, ∀ d ∈ s.mapWithout own, e.Clear d)
    (apart : ∀ e ∈ new, ∀ d ∈ new, e ≠ d → e.Clear d) : t.mapHolds := by
  obtain ⟨within, clear, -⟩ := State.mapHolds_iff.1 h
  refine State.mapHolds_iff.2 ⟨fun e me => ?_, fun e me d md ne => ?_, fun r => by simp [running] at r⟩
  · rcases map e me with placed | kept
    · exact fits e placed
    · exact within e (State.mem_mapWithout.1 kept).1
  · rcases map e me, map d md with ⟨placed | kept, placed' | kept'⟩
    · exact apart e placed d placed' ne
    · exact others e placed d kept'
    · exact (others d placed' e kept).symm
    · exact clear e (State.mem_mapWithout.1 kept).1 d (State.mem_mapWithout.1 kept').1 ne

theorem overlapAt_eq_none {n : Option Nat} : overlapAt n = none ↔ n = none := by simp [overlapAt]

/-- An entry of the map that no write of output `o` names stands in the map without `o`'s own. -/
theorem State.mem_mapWithout_of_other {own : Region → Bool} {s : State} {e : MapEntry} (m : e ∈ s.addressMap)
    (other : own e.region = false) : e ∈ s.mapWithout own := State.mem_mapWithout.2 ⟨m, other⟩

theorem outputEntries_region {o : OutId} {x : Output} {e : MapEntry} (m : e ∈ outputEntries o x) :
    e.region = .window o ∨ e.region = .slate o := by
  unfold outputEntries at m
  split at m
  · simp at m
  · split at m
    · simp only [List.mem_cons, List.not_mem_nil, or_false] at m
      rcases m with rfl | rfl
      · exact .inl rfl
      · exact .inr rfl
    · obtain rfl := List.mem_singleton.1 m
      exact .inl rfl

theorem feedEntries_region {f : FeedId} {c : FeedConfig} {e : MapEntry} (m : e ∈ feedEntries f c) :
    e.region = .ingest f ∨ e.region = .slots f := by
  simp only [feedEntries, List.mem_cons, List.not_mem_nil, or_false] at m
  rcases m with rfl | rfl
  · exact .inl rfl
  · exact .inr rfl

/-- The map after a write of one feed: its own entries are new, the others stand in the map without the old ones. -/
theorem State.addressMap_of_feed {f : FeedId} {x : Feed} {c : FeedConfig} {s : State} (config : x.config = some c)
    {e : MapEntry} (m : e ∈ State.addressMap { s with feeds := s.feeds.set f x }) :
    e ∈ feedEntries f c ∨ e ∈ s.mapWithout fun r => r = .ingest f || r = .slots f := by
  rcases State.mem_addressMap.1 m with rfl | ⟨g, d, own, entry⟩ | ⟨o, entry⟩
  · exact .inr (State.mem_mapWithout_of_other (State.mem_addressMap.2 (.inl rfl)) rfl)
  · by_cases same : g = f
    · subst same
      have written : (s.feeds.set g x)[g] = x := vector_set_self _ _ _
      obtain rfl : d = c := by simpa [written, config, eq_comm] using own
      exact .inl entry
    · have kept : (s.feeds.set f x)[g] = s.feeds[g] := vector_set_other _ _ _ _ same
      have own : s.feeds[g].config = some d := kept ▸ own
      refine .inr (State.mem_mapWithout_of_other (State.mem_addressMap.2 (.inr (.inl ⟨g, d, own, entry⟩))) ?_)
      rcases feedEntries_region entry with region | region <;> simp [region, same]
  · refine .inr (State.mem_mapWithout_of_other (State.mem_addressMap.2 (.inr (.inr ⟨o, entry⟩))) ?_)
    rcases outputEntries_region entry with region | region <;> simp [region]

/-- The map after a write of one output. -/
theorem State.addressMap_of_output {o : OutId} {x : Output} {s : State} {e : MapEntry}
    (m : e ∈ State.addressMap { s with outputs := s.outputs.set o x }) :
    e ∈ outputEntries o x ∨ (e ∈ s.mapWithout fun r => r = .window o || r = .slate o) := by
  rcases State.mem_addressMap.1 m with rfl | ⟨f, c, own, entry⟩ | ⟨q, entry⟩
  · exact .inr (State.mem_mapWithout_of_other (State.mem_addressMap.2 (.inl rfl)) rfl)
  · refine .inr (State.mem_mapWithout_of_other (State.mem_addressMap.2 (.inr (.inl ⟨f, c, own, entry⟩))) ?_)
    rcases feedEntries_region entry with region | region <;> simp [region]
  · by_cases same : q = o
    · subst same
      have written : (s.outputs.set q x)[q] = x := vector_set_self _ _ _
      exact .inl (written ▸ entry)
    · have kept : (s.outputs.set o x)[q] = s.outputs[q] := vector_set_other _ _ _ _ same
      have entry : e ∈ outputEntries q s.outputs[q] := kept ▸ entry
      refine .inr (State.mem_mapWithout_of_other (State.mem_addressMap.2 (.inr (.inr ⟨q, entry⟩))) ?_)
      rcases outputEntries_region entry with region | region <;> simp [region, same]

/-- The region check of CONFIGURE_FEED keeps the map's rule (R171, R172). -/
theorem State.mapHolds_of_feedOverlap {f : FeedId} {x : Feed} {c : FeedConfig} {s : State} (h : s.mapHolds)
    (running : s.resetting = false) (config : x.config = some c) (accepted : s.feedOverlap f c = none) :
    State.mapHolds { s with feeds := s.feeds.set f x } := by
  unfold State.feedOverlap feedEntries at accepted
  simp only [overlapAt_eq_none, Option.or_eq_none_iff, MapEntry.meets_eq_none, List.forall_mem_append,
    List.forall_mem_singleton] at accepted
  obtain ⟨⟨windowFits, windowClear, windowSlots⟩, slotsFits, slotsClear, slotsWindow⟩ := accepted
  refine State.mapHolds_of_placed (new := feedEntries f c) h running (fun e m => State.addressMap_of_feed config m)
    ?_ ?_ ?_
  all_goals simp only [feedEntries, List.forall_mem_cons, List.not_mem_nil, false_implies, implies_true, and_true]
  · exact ⟨windowFits, slotsFits⟩
  · exact ⟨windowClear, slotsClear⟩
  · exact ⟨⟨fun ne => absurd rfl ne, fun _ => windowSlots⟩, fun _ => slotsWindow, fun ne => absurd rfl ne⟩

/-- The region check of CONFIGURE_OUTPUT keeps the map's rule (R171, R176). -/
theorem State.mapHolds_of_windowOverlap {o : OutId} {x : Output} {c : OutputConfig} {s : State} (h : s.mapHolds)
    (running : s.resetting = false) (config : x.config = some c) (page : x.modes.slatePage = none)
    (accepted : s.windowOverlap o c = none) : State.mapHolds { s with outputs := s.outputs.set o x } := by
  unfold State.windowOverlap at accepted
  simp only [overlapAt_eq_none, MapEntry.meets_eq_none] at accepted
  obtain ⟨fits, clear⟩ := accepted
  have entries : outputEntries o x = [windowEntry o c] := by simp [outputEntries, config, page]
  refine State.mapHolds_of_placed (new := [windowEntry o c]) h running
    (fun e m => entries ▸ State.addressMap_of_output m) ?_ ?_ ?_
  · simpa using fits
  · simpa using clear
  · simp

/-- The region check of SET_SLATE keeps the map's rule (R171, R180). -/
theorem State.mapHolds_of_slateOverlap {o : OutId} {x : Output} {s : State} (h : s.mapHolds)
    (running : s.resetting = false) (config : x.config = s.outputs[o].config)
    (accepted : s.slateOverlap o x.modes.slatePage = none) :
    State.mapHolds { s with outputs := s.outputs.set o x } := by
  have without {e : MapEntry} (m : e ∈ s.mapWithout fun r => r = .window o || r = .slate o) :
      e ∈ s.mapWithout fun r => r = .slate o := by
    obtain ⟨inMap, other⟩ := State.mem_mapWithout.1 m
    exact State.mem_mapWithout.2 ⟨inMap, (Bool.or_eq_false_iff.1 other).2⟩
  have window {c : OutputConfig} (own : x.config = some c) : windowEntry o c ∈ s.mapWithout fun r => r = .slate o := by
    have entry : windowEntry o c ∈ outputEntries o s.outputs[o] := by
      unfold outputEntries
      rw [← config, own]
      exact List.mem_cons_self ..
    exact State.mem_mapWithout.2 ⟨State.mem_addressMap.2 (.inr (.inr ⟨o, entry⟩)), by simp [windowEntry]⟩
  unfold State.slateOverlap at accepted
  rw [← config] at accepted
  cases own : x.config with
  | none =>
    refine State.mapHolds_of_placed (new := []) h running (fun e m => .inr ?_) (by simp) (by simp) (by simp)
      (own := fun r => r = .slate o)
    rcases State.addressMap_of_output m with entry | kept
    · simp [outputEntries, own] at entry
    · exact without kept
  | some c =>
    cases page : x.modes.slatePage with
    | none =>
      refine State.mapHolds_of_placed (new := []) h running (fun e m => .inr ?_) (by simp) (by simp) (by simp)
        (own := fun r => r = .slate o)
      rcases State.addressMap_of_output m with entry | kept
      · obtain rfl : e = windowEntry o c := by simpa [outputEntries, own, page] using entry
        exact window own
      · exact without kept
    | some p =>
      simp only [own, page, overlapAt_eq_none, MapEntry.meets_eq_none] at accepted
      obtain ⟨fits, clear⟩ := accepted
      refine State.mapHolds_of_placed (new := [slateEntry o c p]) h running (fun e m => ?_) ?_ ?_ ?_
        (own := fun r => r = .slate o)
      · rcases State.addressMap_of_output m with entry | kept
        · have entry : e = windowEntry o c ∨ e = slateEntry o c p := by simpa [outputEntries, own, page] using entry
          rcases entry with rfl | rfl
          · exact .inr (window own)
          · exact .inl (List.mem_singleton_self _)
        · exact .inr (without kept)
      · simpa using fits
      · simpa using clear
      · simp

end Sys2Proof.Machine
end

section
/-! The limits, the requests, the tables, the burst numbers and the address map through every step. -/

namespace Sys2Proof.Machine

open State (Retains)

/-! ### What an operation keeps -/

/-- An operation of a part out of reset keeps the five rules that EveryStepKeepsTheLimits names. -/
structure State.Lawful (s t : State) : Prop where
  resetting : t.resetting = s.resetting
  limits : s.withinLimits → t.withinLimits
  requests : RequestsOnce s.class3 → RequestsOnce t.class3
  tables : s.tablesValid → t.tablesValid
  serials : s.serialsHold → t.serialsHold
  map : s.resetting = false → s.mapHolds → t.mapHolds

theorem State.Lawful.trans {s t u : State} (h : s.Lawful t) (k : t.Lawful u) : s.Lawful u where
  resetting := k.resetting.trans h.resetting
  limits := k.limits ∘ h.limits
  requests := k.requests ∘ h.requests
  tables := k.tables ∘ h.tables
  serials := k.serials ∘ h.serials
  map r m := k.map (h.resetting.trans r) (h.map r m)

theorem State.Retains.reads_length {s t : State} (h : s.Retains t) : t.reads.length ≤ s.reads.length := by
  simpa using h.reads.length_le

theorem State.Retains.writes_length {s t : State} (h : s.Retains t) : t.writes.length ≤ s.writes.length := by
  simpa using h.writes.length_le

theorem State.Retains.serials {s t : State} (h : s.Retains t) (k : s.serialsHold) : t.serialsHold := by
  obtain ⟨reads, writes⟩ := k
  refine ⟨fun x m => ?_, fun x m => ?_⟩
  · obtain ⟨y, my, e⟩ := List.mem_map.1 (h.reads.subset (List.mem_map_of_mem m))
    rw [h.serial, ← e]
    exact reads y my
  · obtain ⟨y, my, e⟩ := List.mem_map.1 (h.writes.subset (List.mem_map_of_mem m))
    rw [h.serial, ← e]
    exact writes y my

theorem State.mapHolds_congr {s t : State} (map : t.addressMap = s.addressMap) (resetting : t.resetting = s.resetting)
    (h : s.mapHolds) : t.mapHolds := by
  unfold State.mapHolds
  rw [map, resetting]
  exact h

theorem State.Retains.lawful {s t : State} (h : s.Retains t) : s.Lawful t where
  resetting := h.resetting
  limits := fun ⟨reads, writes, granted, queues⟩ =>
    ⟨h.reads_length.trans reads, h.writes_length.trans writes, h.granted.trans granted,
      fun o => (h.queues o).trans (queues o)⟩
  requests := h.class3
  tables valid k p := by
    rw [h.tables k]
    exact valid k p
  serials := h.serials
  map _ := State.mapHolds_congr h.map h.resetting

theorem State.Lawful.refl (s : State) : s.Lawful s := (Retains.refl s).lawful

theorem State.Lawful.foldl {α : Type} {g : State → α → State} (h : ∀ (s : State) (a : α), s.Lawful (g s a)) :
    ∀ (l : List α) (s : State), s.Lawful (l.foldl g s)
  | [], s => .refl s
  | a :: l, s => (h s a).trans (State.Lawful.foldl h l (g s a))

/-! ### Writes of a feed or an output that move a region or a queue -/

theorem State.putFeed_lawful {f : FeedId} {x : Feed} {s : State}
    (map : s.resetting = false → s.mapHolds → State.mapHolds { s with feeds := s.feeds.set f x }) :
    s.Lawful (s.putFeed f x) :=
  have written : s.Lawful { s with feeds := s.feeds.set f x } := { State.Lawful.refl s with map := map }
  written.trans (s.putFeed_announces f x).lawful

theorem State.putOutput_lawful {o : OutId} {x : Output} {s : State}
    (queue : s.outputs[o].builder.queue.length ≤ Config.queueLimit → x.builder.queue.length ≤ Config.queueLimit)
    (map : s.resetting = false → s.mapHolds → State.mapHolds { s with outputs := s.outputs.set o x }) :
    s.Lawful (s.putOutput o x) := by
  have written : s.Lawful { s with outputs := s.outputs.set o x } :=
    { State.Lawful.refl s with
      limits := fun ⟨reads, writes, granted, queues⟩ => ⟨reads, writes, granted, fun q => by
        by_cases same : q = o
        · subst same
          have own : (s.outputs.set q x)[q] = x := vector_set_self _ _ _
          simpa only [own] using queue (queues q)
        · have kept : (s.outputs.set o x)[q] = s.outputs[q] := vector_set_other _ _ _ _ same
          exact kept ▸ queues q⟩
      map := map }
  exact written.trans (s.putOutput_announces o x).lawful

/-! ### Bursts accepted (R157) -/

/-- The channel of a burst has a place among its outstanding ones (R157). -/
def State.HasPlace (b : Burst) (s : State) : Prop :=
  (b.write = true → s.writes.length < Config.busLimit) ∧ (b.write = false → s.reads.length < Config.busLimit)

theorem State.hasPlace_of_roomFor {b : Burst} {s : State} (room : s.roomFor b = true) : s.HasPlace b := by
  unfold State.roomFor at room
  refine ⟨fun write => ?_, fun read => ?_⟩
  · simpa [write] using room
  · rw [read] at room
    exact of_decide_eq_true (Bool.and_eq_true _ _ ▸ room).1

theorem State.Retains.hasPlace {b : Burst} {s t : State} (h : s.Retains t) (room : s.HasPlace b) : t.HasPlace b :=
  ⟨fun write => h.writes_length.trans_lt (room.1 write), fun read => h.reads_length.trans_lt (room.2 read)⟩

theorem serials_append {α : Type} {serial : α → Nat} {l : List α} {n : Nat} {x : α} (all : ∀ y ∈ l, serial y < n)
    (new : serial x = n) : ∀ y ∈ l ++ [x], serial y < n + 1 := by
  intro y m
  rcases List.mem_append.1 m with old | last
  · exact (all y old).trans n.lt_succ_self
  · rw [List.mem_singleton.1 last, new]
    exact n.lt_succ_self

theorem State.openRead_lawful {b : Burst} {s : State} (room : s.reads.length < Config.busLimit)
    (beats : List ReadBeat) (ready : Bool) : s.Lawful (s.openRead b beats ready) :=
  { State.Lawful.refl s with
    limits := fun ⟨_, writes, granted, queues⟩ =>
      ⟨by simpa [State.openRead] using Nat.succ_le_of_lt room, writes, granted, queues⟩
    serials := fun ⟨reads, writes⟩ =>
      ⟨serials_append reads rfl, fun x m => (writes x m).trans s.nextSerial.lt_succ_self⟩
    map := fun _ => id }

theorem State.openWrite_lawful {b : Burst} {s : State} (room : s.writes.length < Config.busLimit)
    (resp : Option Resp) : s.Lawful (s.openWrite b resp) :=
  { State.Lawful.refl s with
    limits := fun ⟨reads, _, granted, queues⟩ =>
      ⟨reads, by simpa [State.openWrite] using Nat.succ_le_of_lt room, granted, queues⟩
    serials := fun ⟨reads, writes⟩ =>
      ⟨fun x m => (reads x m).trans s.nextSerial.lt_succ_self, serials_append writes rfl⟩
    map := fun _ => id }

theorem State.forward_lawful {b : Burst} {s : State} (room : s.HasPlace b) (out : Burst) (kind : BusKind)
    (cells overruns : List CellId) : s.Lawful (s.forward b out kind cells overruns) := by
  have opened : s.Lawful (s.openBurst b) := by
    unfold State.openBurst
    split
    · next write => exact State.openWrite_lawful (room.1 write) none
    · next read => exact State.openRead_lawful (room.2 (Bool.eq_false_iff.2 read)) [] false
  have queued (t : State) (q : List Forwarded) : t.Retains { t with class2 := q } := .of_kept id
  exact opened.trans (queued _ _).lawful

theorem State.refuse_lawful {b : Burst} {s : State} (room : s.HasPlace b) (cond : Conds) :
    s.Lawful (s.refuse b cond) := by
  unfold State.refuse
  refine .trans ?_ ((State.setDevice_retains cond _).trans (State.flush_retains _)).lawful
  split
  · next write => exact State.openWrite_lawful (room.1 write) _
  · next read => exact State.openRead_lawful (room.2 (Bool.eq_false_iff.2 read)) _ true

theorem State.steerWrite_lawful {b : Burst} {s : State} (room : s.HasPlace b) (write : b.write = true) (f : FeedId)
    (c : FeedConfig) : s.Lawful (s.steerWrite f c b) := by
  unfold State.steerWrite
  dsimp only
  split
  · exact State.forward_lawful room _ _ _ _
  · exact (State.openWrite_lawful (room.1 write) _).trans (State.flush_retains _).lawful

theorem State.ingestWrite_lawful {b : Burst} {s : State} (room : s.HasPlace b) (write : b.write = true)
    (f : FeedId) : s.Lawful (s.ingestWrite f b) := by
  unfold State.ingestWrite
  split
  · exact .refl s
  · next c _ =>
    have anchored := s.takeAnchor_retains f c (c.offset b)
    exact anchored.lawful.trans (State.steerWrite_lawful (anchored.hasPlace room) write f c)

theorem State.ingestRead_lawful {b : Burst} {s : State} (room : s.HasPlace b) (f : FeedId) :
    s.Lawful (s.ingestRead f b) := by
  unfold State.ingestRead
  split
  · exact .refl s
  · exact State.forward_lawful room _ _ _ _

theorem State.outputRead_lawful {b : Burst} {o : OutId} {s : State} (room : s.reads.length < Config.busLimit)
    (queue : s.outputs[o].builder.queue.length < Config.queueLimit) : s.Lawful (s.outputRead o b) := by
  have joined (q : QueuedRead) : s.Lawful ((s.openRead b [] false).modifyBuilder o fun lb =>
      { lb with queue := lb.queue ++ [q] }) := by
    have grown : (s.outputs[o].builder.queue ++ [q]).length ≤ Config.queueLimit := by
      simpa using Nat.succ_le_of_lt queue
    exact (State.openRead_lawful (b := b) room [] false).trans
      (State.putOutput_lawful (fun _ => grown) fun _ => State.mapHolds_congr (State.addressMap_setOutput rfl rfl) rfl)
  unfold State.outputRead
  dsimp only
  split
  · exact .refl s
  · split
    · exact (joined _).trans ((State.takeHead_retains o _).trans (State.flush_retains _)).lawful
    · exact joined _

/-! ### The commands -/

theorem State.judge_lawful {c : CellId} {refusal : Refused} {act : State → State} {s : State}
    (accepted : refusal = none → s.Lawful (act s)) : s.Lawful (s.judge c refusal act) := by
  unfold State.judge
  split
  · exact (s.settle_retains c _ _).lawful
  · exact (accepted rfl).trans (State.settle_retains c _ _ _).lawful

theorem State.onQuad_lawful {w : CellWrite} {act : Fin 4 → State → State} {s : State}
    (h : ∀ t, s.Lawful (act t s)) : s.Lawful (s.onQuad w act) := by
  unfold State.onQuad
  split
  · exact (s.settle_retains _ _ _).lawful
  · exact h _

theorem State.configureFeed_lawful (w : CellWrite) (s : State) : s.Lawful (s.configureFeed w) := by
  refine State.onQuad_lawful fun f => State.judge_lawful fun accepted => ?_
  have apart : s.feedOverlap f (feedConfigOf w) = none := eq_none_of_firstRefusal accepted _ (by simp)
  exact (State.putFeed_lawful fun running map => State.mapHolds_of_feedOverlap map running rfl apart).trans
    (State.mark_retains _ _).lawful

theorem State.enableFeed_lawful (w : CellWrite) (s : State) : s.Lawful (s.enableFeed w) := by
  refine State.onQuad_lawful fun f => ?_
  split
  · exact (s.settle_retains _ _ _).lawful
  · refine State.judge_lawful fun _ => (State.Retains.trans (State.Retains.trans ?_
      (State.feedEvent_retains f _ _)) (State.mark_retains _ _)).lawful
    exact State.modifyFeed_retains rfl

theorem State.disableFeed_lawful (w : CellWrite) (s : State) : s.Lawful (s.disableFeed w) := by
  refine State.onQuad_lawful fun f => State.judge_lawful fun _ => (State.Retains.trans (State.Retains.trans ?_
    (State.notify_retains _ _)) (State.mark_retains _ _)).lawful
  exact State.modifyFeed_retains rfl

theorem State.rearmMonitor_lawful (w : CellWrite) (s : State) : s.Lawful (s.rearmMonitor w) :=
  State.onQuad_lawful fun f => State.judge_lawful fun _ =>
    ((State.putFeed_retains (State.feedEntries_map_threshold f _ _)).trans (State.mark_retains _ _)).lawful

theorem State.configureOutput_lawful (w : CellWrite) (s : State) : s.Lawful (s.configureOutput w) := by
  refine State.onQuad_lawful fun o => State.judge_lawful fun accepted => ?_
  have apart : s.windowOverlap o (outputConfigOf w) = none := eq_none_of_firstRefusal accepted _ (by simp)
  have dropped := s.dropFrozen_retains o
  have apart : (s.dropFrozen o).windowOverlap o (outputConfigOf w) = none := by
    unfold State.windowOverlap State.mapWithout at *
    rw [dropped.map]
    exact apart
  refine (dropped.lawful.trans ?_).trans (State.mark_retains _ _).lawful
  exact State.putOutput_lawful id fun running map => State.mapHolds_of_windowOverlap map running rfl rfl apart

theorem State.startOutput_lawful (w : CellWrite) (s : State) : s.Lawful (s.startOutput w) := by
  refine State.onQuad_lawful fun o => ?_
  split
  · exact (s.settle_retains _ _ _).lawful
  · exact State.judge_lawful fun _ => (State.modifyOutput_retains rfl rfl le_rfl).lawful

theorem State.stopOutput_lawful (w : CellWrite) (s : State) : s.Lawful (s.stopOutput w) := by
  refine State.onQuad_lawful fun o => State.judge_lawful fun _ => ?_
  split
  · exact (s.stopRunning_retains o).lawful
  · exact (State.modifyOutput_retains rfl rfl le_rfl).lawful

theorem State.setResponse_lawful (w : CellWrite) (s : State) : s.Lawful (s.setResponse w) :=
  State.onQuad_lawful fun o => State.judge_lawful fun _ => by
    refine (State.Retains.trans ?_ (State.mark_retains _ _)).lawful
    exact State.modifyModes_retains rfl

theorem State.setSlate_lawful (w : CellWrite) (s : State) : s.Lawful (s.setSlate w) := by
  refine State.onQuad_lawful fun o => State.judge_lawful fun accepted => ?_
  have apart : s.slateOverlap o (slatePageOf w) = none := eq_none_of_firstRefusal accepted _ (by simp)
  refine .trans ?_ (State.mark_retains _ _).lawful
  exact State.putOutput_lawful id fun running map => State.mapHolds_of_slateOverlap map running rfl apart

theorem State.forceMode_lawful (w : CellWrite) (s : State) : s.Lawful (s.forceMode w) :=
  State.onQuad_lawful fun o => State.judge_lawful fun _ => by
    refine (State.Retains.trans ?_ (State.mark_retains _ _)).lawful
    exact State.modifyModes_retains rfl

theorem State.releaseMode_lawful (w : CellWrite) (s : State) : s.Lawful (s.releaseMode w) :=
  State.onQuad_lawful fun o => State.judge_lawful fun _ => by
    refine (State.Retains.trans ?_ (State.mark_retains _ _)).lawful
    exact State.modifyModes_retains rfl

theorem State.loadCoefficients_lawful (w : CellWrite) (s : State) : s.Lawful (s.loadCoefficients w) := by
  unfold State.loadCoefficients
  split
  · exact (s.settle_retains _ _ _).lawful
  · split
    · exact (s.settle_retains _ _ _).lawful
    · exact (s.beginLoad_retains _ _ _).lawful

theorem State.clearConditions_lawful (w : CellWrite) (s : State) : s.Lawful (s.clearConditions w) := by
  unfold State.clearConditions
  split
  · exact (s.settle_retains _ _ _).lawful
  · exact ((s.clearWord_retains _ _ _).trans (State.settle_retains _ _ _ _)).lawful

theorem State.setMasks_lawful (w : CellWrite) (s : State) : s.Lawful (s.setMasks w) := by
  unfold State.setMasks
  split
  · exact (s.settle_retains _ _ _).lawful
  · exact ((s.setMask_retains _ _).trans (State.settle_retains _ _ _ _)).lawful

/-- DEVICE_CLEAR turns a waiting request into one of the same record, or of no record and no trace (R164, R187). -/
theorem State.clearedRequest_eq_some {s : State} {x y : Housekeeping} (h : s.clearedRequest x = some y) :
    (∃ r, x = .record r ∧ y = .record r) ∨ ∃ c word, y = .result c word := by
  unfold State.clearedRequest at h
  split at h
  · cases h
  · cases h
  · next r =>
    cases h
    exact .inl ⟨r, rfl, rfl⟩
  · split at h
    · cases h
      exact .inr ⟨_, _, rfl⟩
    · cases h
      exact .inr ⟨_, _, rfl⟩

theorem State.clearBlocks_lawful (s : State) : s.Lawful s.clearBlocks := by
  have cleared (o : OutId) : s.clearBlocks.outputs[o] = s.outputs[o].cleared := by simp [State.clearBlocks]
  refine
    { resetting := rfl
      limits := fun ⟨reads, writes, granted, _⟩ => ⟨reads, writes, ?_, fun o => ?_⟩
      requests := fun h => h.filterMap (fun x r image => ?_) fun x y o i image named => ?_
      tables := fun valid k p => ?_
      serials := id
      map := fun _ _ => State.mapHolds_of_alone (State.addressMap_length_of_empty (fun f => ?_) fun o => ?_) }
  · simpa [State.clearBlocks] using granted
  · rw [cleared]
    exact Nat.zero_le _
  · rcases State.clearedRequest_eq_some image with ⟨r, rfl, same⟩ | ⟨_, _, result⟩
    · exact same.symm
    · cases result
  · rcases State.clearedRequest_eq_some image with ⟨r, rfl, rfl⟩ | ⟨_, _, rfl⟩ <;> cases named
  · simpa [State.clearBlocks] using valid k p
  · simp [State.clearBlocks, Feed.cleared, Feed.initial]
  · rw [cleared]
    rfl

theorem State.deviceClear_lawful (w : CellWrite) (s : State) : s.Lawful (s.deviceClear w) :=
  (State.Retains.foldl (fun s o => s.blackOut_retains o) allOutputs s).lawful.trans
    ((State.clearBlocks_lawful _).trans ((((State.abortCells_retains _ _).trans (State.markAll_retains _)).trans
      (State.settle_retains _ _ _ _)).trans (State.flush_retains _)).lawful)

theorem State.runCommand_lawful (code : Byte) (w : CellWrite) (s : State) : s.Lawful (s.runCommand code w) := by
  unfold State.runCommand
  split
  · exact s.configureFeed_lawful w
  · exact s.enableFeed_lawful w
  · exact s.disableFeed_lawful w
  · exact s.rearmMonitor_lawful w
  · exact s.configureOutput_lawful w
  · exact s.startOutput_lawful w
  · exact s.stopOutput_lawful w
  · exact s.setResponse_lawful w
  · exact s.setSlate_lawful w
  · exact s.forceMode_lawful w
  · exact s.releaseMode_lawful w
  · exact s.loadCoefficients_lawful w
  · exact s.clearConditions_lawful w
  · exact s.setMasks_lawful w
  · exact (s.identify_retains w).lawful
  · exact s.deviceClear_lawful w
  · exact (s.settle_retains _ _ _).lawful

theorem State.commandCell_lawful {run : CellWrite → State → State} (h : ∀ w s, State.Lawful s (run w s))
    (w : CellWrite) (s : State) : s.Lawful (s.commandCell w run) := by
  unfold State.commandCell
  split
  · exact (s.setDevice_retains _).lawful
  · exact (s.putCell_retains _ _).lawful.trans (h w _)

/-! ### Bursts at the Bus Port -/

theorem State.offerCell_lawful (base : Nat) (b : Burst) (c : CellId) (s : State) :
    s.Lawful (s.offerCell base b c) := by
  unfold State.offerCell
  split
  · exact State.commandCell_lawful (State.runCommand_lawful _) _ s
  · split
    · exact (s.setDevice_retains _).lawful
    · exact .refl s

theorem State.controlWrite_lawful {b : Burst} {s : State} (room : s.HasPlace b) : s.Lawful (s.controlWrite b) :=
  (State.forward_lawful room _ _ _ _).trans (.foldl (fun s c => s.offerCell_lawful _ b c) _ _)

/-- Where a burst goes, by the class of its first byte. As in `State.dispatch_elim`, `State.route` is unfolded as a
function, before it meets its arguments. -/
theorem State.route_eq (b : Burst) (s : State) : s.route b =
    match s.classOf b.addr with
    | none => .forwarded .other
    | some .control => if b.write then .controlWrite else .forwarded .control
    | some (.slots f) => .forwarded (s.slotKind f b)
    | some (.slate _) => .forwarded .slate
    | some (.ingest f) => if b.kind ≠ .incr then .refused else if b.write then .ingestWrite f else .ingestRead f
    | some (.window o) => if b.kind ≠ .incr then .refused else if b.write then .windowWrite else .outputRead o := by
  generalize unfolded : State.route = r
  delta State.route at unfolded
  subst unfolded
  rfl

theorem State.route_of_ingestWrite {b : Burst} {s : State} {f : FeedId} (h : s.route b = .ingestWrite f) :
    b.write = true := by
  rw [State.route_eq] at h
  generalize s.classOf b.addr = class_ at h
  cases write : b.write with
  | true => rfl
  | false =>
    rw [write] at h
    rcases class_ with _ | _ | g | g | q | q <;> simp at h
    · split at h <;> cases h
    · split at h <;> cases h

theorem State.route_of_outputRead {b : Burst} {s : State} {o : OutId} (h : s.route b = .outputRead o) :
    b.write = false ∧ s.classOf b.addr = some (.window o) := by
  rw [State.route_eq] at h
  generalize s.classOf b.addr = class_ at h ⊢
  rcases class_ with _ | _ | g | g | q | q
  · cases h
  · cases write : b.write <;> simp [write] at h
  · cases write : b.write <;> simp only [write] at h <;> split at h <;> cases h
  · cases h
  · cases write : b.write <;> simp only [write] at h <;> split at h <;> cases h
    exact ⟨rfl, rfl⟩
  · cases h

theorem State.queueRoom_of_window {b : Burst} {s : State} {o : OutId} (h : s.classOf b.addr = some (.window o)) :
    s.queueRoom b = decide (s.outputs[o].builder.queue.length < Config.queueLimit) := by
  generalize unfolded : State.queueRoom = r
  delta State.queueRoom at unfolded
  subst unfolded
  simp only [h]

theorem State.queueRoom_of_other {b : Burst} {s : State} (h : ∀ o, s.classOf b.addr ≠ some (.window o)) :
    s.queueRoom b = true := by
  generalize unfolded : State.queueRoom = r
  delta State.queueRoom at unfolded
  subst unfolded
  dsimp only
  split
  · next o window => exact absurd window (h o)
  · rfl

theorem State.queueRoom_congr {b : Burst} {s t : State} (class_ : t.classOf b.addr = s.classOf b.addr)
    (outputs : t.outputs = s.outputs) : t.queueRoom b = s.queueRoom b := by
  by_cases inWindow : ∃ o, s.classOf b.addr = some (.window o)
  · obtain ⟨o, window⟩ := inWindow
    rw [State.queueRoom_of_window window, State.queueRoom_of_window (class_.trans window), outputs]
  · have other := not_exists.1 inWindow
    rw [State.queueRoom_of_other other, State.queueRoom_of_other fun o e => other o (class_.symm.trans e)]

theorem State.dispatch_lawful {b : Burst} {s : State} (room : s.roomFor b = true) : s.Lawful (s.dispatch b) := by
  have place := State.hasPlace_of_roomFor room
  apply State.dispatch_elim (P := fun t => s.Lawful t)
  case forwarded => exact fun kind _ => State.forward_lawful place b kind [] []
  case controlWrite => exact fun _ => State.controlWrite_lawful place
  case ingestWrite => exact fun f route => State.ingestWrite_lawful place (State.route_of_ingestWrite route) f
  case ingestRead => exact fun f _ => State.ingestRead_lawful place f
  case outputRead =>
    intro o route
    obtain ⟨read, window⟩ := State.route_of_outputRead route
    refine State.outputRead_lawful (place.2 read) ?_
    unfold State.roomFor at room
    rw [read, State.queueRoom_of_window window] at room
    exact of_decide_eq_true (Bool.and_eq_true _ _ ▸ room).2
  case refused => exact fun _ => State.refuse_lawful place _
  case toWindow => exact fun _ => State.refuse_lawful place _

theorem State.roomFor_of_admits {b : Burst} {s : State} (admitted : s.admits b = true) :
    (s.putHeld b none).roomFor b = true := by
  have room := (Bool.and_eq_true _ _ ▸ admitted).2
  have class_ : (s.putHeld b none).classOf b.addr = s.classOf b.addr := by
    unfold State.classOf
    rw [(s.putHeld_retains b none).map]
  unfold State.roomFor at *
  rwa [State.queueRoom_congr class_ (State.putHeld_outputs ..), State.putHeld_writes, State.putHeld_reads]

theorem State.hold_retains (b : Burst) (s : State) : s.Retains (s.hold b) := by
  unfold State.hold
  split
  · exact s.putHeld_retains b _
  · exact .refl s

theorem State.presentBurst_lawful (b : Burst) (s : State) : s.Lawful (s.presentBurst b) := by
  unfold State.presentBurst
  split
  · next admitted =>
    exact (s.putHeld_retains b none).lawful.trans (State.dispatch_lawful (State.roomFor_of_admits admitted))
  · exact (s.hold_retains b).lawful

theorem State.hostCommand_lawful {run : CellWrite → State → State} (h : ∀ w s, State.Lawful s (run w s))
    (code : Byte) (w : CellWrite) (s : State) : s.Lawful (s.hostCommand code run w) := by
  unfold State.hostCommand
  dsimp only
  split
  · next admitted =>
    have place := State.hasPlace_of_roomFor (State.roomFor_of_admits admitted)
    exact (s.putHeld_retains _ none).lawful.trans
      ((State.forward_lawful place _ _ _ _).trans (State.commandCell_lawful h w _))
  · exact (s.hold_retains _).lawful

/-! ### The arbiter and the responses -/

theorem State.addGranted_lawful {s : State} (room : s.granted.length < Config.grantLimit) (n : BitVec 9)
    (write : Bool) (work : Work) : s.Lawful (s.addGranted n write work) :=
  { State.Lawful.refl s with
    limits := fun ⟨reads, writes, _, queues⟩ =>
      ⟨reads, writes, by simpa [State.addGranted] using Nat.succ_le_of_lt room, queues⟩
    map := fun _ => id }

theorem State.countUpdate_retains (r : RecordSel) (s : State) : s.Retains (s.countUpdate r) := by
  cases r with
  | device => exact .of_kept id rfl rfl rfl rfl rfl rfl rfl rfl rfl
  | feed f =>
    exact { State.Retains.refl s with
      map := State.addressMap_congr rfl (fun g => by
        by_cases same : g = f
        · subst same
          simp [State.countUpdate]
        · exact congrArg (fun x : Feed => x.config.map (feedEntries g)) (vector_set_other s.feeds f g _ same))
        fun _ => rfl }
  | output o =>
    exact { State.Retains.refl s with
      queues := fun q => by
        by_cases same : q = o
        · subst same
          simp [State.countUpdate]
        · exact (congrArg (fun y : Output => y.builder.queue.length) (vector_set_other s.outputs o q _ same)).le
      map := State.addressMap_setOutput rfl rfl }

theorem State.grantThird_lawful {h : Housekeeping} {rest : List Housekeeping} {s : State}
    (room : s.granted.length < Config.grantLimit) (head : s.class3 = h :: rest) : s.Lawful (s.grantThird h rest) := by
  have taken : s.Retains { s with class3 := rest } := .of_kept fun once => RequestsOnce.tail (head ▸ once)
  have granted {t : State} (k : s.Retains t) (write : Bool) (work : Work) :
      s.Lawful (t.addGranted class3Id write work) :=
    k.lawful.trans (State.addGranted_lawful (k.granted.trans_lt room) _ write work)
  cases h with
  | record r =>
    exact granted ((taken.trans (State.countUpdate_retains r _)).trans
      (.foldl (fun s c => s.setIdentify_retains _ c) _ _)) true _
  | trace o i bytes => exact granted taken true _
  | result c word =>
    refine granted (taken.trans ?_) true _
    split
    · exact State.putCell_retains c _ _
    · exact .refl _
  | table k page => exact granted taken false _

theorem State.offerThird_lawful {s : State} (room : s.granted.length < Config.grantLimit) :
    s.Lawful s.offerThird := by
  unfold State.offerThird
  split
  · exact .refl s
  · next head =>
    split
    · exact .refl s
    · exact State.grantThird_lawful room head

theorem State.grant_lawful (s : State) : s.Lawful s.grant := by
  have written (q : Vector (List Fetch) 4) (p : OutId) : s.Retains { s with class1 := q, pointer := p } := .of_kept id
  have sent (q : List Forwarded) : s.Retains { s with class2 := q } := .of_kept id
  unfold State.grant
  split
  · exact .refl s
  · next room =>
    have room := Nat.not_le.1 room
    split
    · unfold State.grantFetch
      split
      · exact .refl s
      · next o _ _ _ rest _ =>
        refine (written (s.class1.set o rest) (o + 1)).lawful.trans ?_
        exact State.addGranted_lawful (by exact room) _ _ _
    · split
      · exact State.offerThird_lawful room
      · split
        · exact State.offerThird_lawful room
        · next rest _ _ =>
          refine (sent rest).lawful.trans ?_
          exact State.addGranted_lawful (by exact room) _ _ _

/-- A bank that takes a valid table, or keeps its own, keeps the tables valid (R94). -/
theorem State.endLoad_lawful {s : State} (k : BankId) {table : CoefTable}
    (valid : s.tablesValid → ∀ p : Fin 32, table[p].valid = true) : s.Lawful (s.endLoad k table) :=
  { State.Lawful.refl s with
    tables := fun all j p => by
      by_cases same : j = k
      · subst same
        simpa [State.endLoad] using valid all p
      · have kept : (s.endLoad k table).banks[j] = s.banks[j] := vector_set_other s.banks k j _ same
        rw [kept]
        exact all j p
    map := fun _ => id }

theorem CoefTable.valid_of_firstInvalid {t : CoefTable} (h : t.firstInvalid = none) (p : Fin 32) :
    t[p].valid = true := by
  simpa using List.find?_eq_none.1 h p (List.mem_finRange p)

theorem State.loadComplete_lawful (k : BankId) (beats : List ReadBeat) (s : State) :
    s.Lawful (s.loadComplete k beats) := by
  unfold State.loadComplete
  split
  · exact .refl s
  · dsimp only
    split
    · exact (State.endLoad_lawful k fun all => all k).trans (State.settle_retains _ _ _ _).lawful
    · split
      · exact (State.endLoad_lawful k fun all => all k).trans (State.settle_retains _ _ _ _).lawful
      · next valid =>
        exact (State.endLoad_lawful k fun _ => CoefTable.valid_of_firstInvalid valid).trans
          (State.settle_retains _ _ _ _).lawful

theorem State.recordWritten_retains (cells : List CellId) (s : State) : s.Retains (s.recordWritten cells) :=
  .foldl (fun s c => s.identified_retains c) cells s

theorem State.finish_lawful (w : Work) (r : Reply) (s : State) : s.Lawful (s.finish w r) := by
  cases w with
  | bus x =>
    rw [State.finish]
    split
    · exact (((s.answerWrite_retains _ _).trans (State.busEffect_retains x _ _)).trans
        (State.flush_retains _)).lawful
    · exact ((s.answerRead_retains _ _).trans (State.flush_retains _)).lawful
  | fetch o f => exact (s.fetched_retains o f _).lawful
  | record r bytes cells => exact (s.recordWritten_retains cells).lawful
  | result c => exact (s.resultWritten_retains c).lawful
  | table k => exact s.loadComplete_lawful k (replyBeats r)
  | trace | discarded => exact State.Lawful.refl s

/-! ### The rows of the table -/

/-- The five rules that EveryStepKeepsTheLimits names go from one state to another. -/
structure State.KeepsLimits (s t : State) : Prop where
  limits : s.withinLimits → t.withinLimits
  requests : s.requestsOnce → t.requestsOnce
  tables : s.tablesValid → t.tablesValid
  serials : s.serialsHold → t.serialsHold
  map : s.mapHolds → t.mapHolds

theorem State.Lawful.keepsLimits {s t : State} (running : s.resetting = false) (h : s.Lawful t) : s.KeepsLimits t :=
  ⟨h.limits, h.requests, h.tables, h.serials, h.map running⟩

/-- What a step of the part answers keeps the five rules, where it is a next state. -/
def Answer.keepsLimits (s : State) (a : Answer) : Prop := ∀ t, a = .next t → s.KeepsLimits t

theorem Answer.next_keepsLimits {s t : State} (h : s.KeepsLimits t) : Answer.keepsLimits s (.next t) := by
  rintro _ ⟨⟩
  exact h

theorem State.unlessReset_keepsLimits {act : State → Answer} {s : State}
    (h : s.resetting = false → Answer.keepsLimits s (act s)) : Answer.keepsLimits s (s.unlessReset act) := by
  unfold State.unlessReset
  split
  · exact Answer.next_keepsLimits ⟨id, id, id, id, id⟩
  · next running => exact h (Bool.eq_false_iff.2 running)

theorem own_keepsLimits {act : State → State} {s : State} (h : s.Lawful (act s)) :
    Answer.keepsLimits s (s.unlessReset fun s => .next (act s)) :=
  State.unlessReset_keepsLimits fun running => Answer.next_keepsLimits (h.keepsLimits running)

theorem cellRow_keepsLimits {run : CellWrite → State → State} (h : ∀ w s, State.Lawful s (run w s)) (code : Byte)
    (w : CellWrite) (s : State) : Answer.keepsLimits s (cellRow code run w s) :=
  own_keepsLimits (State.hostCommand_lawful h code w s)

theorem replyRow_keepsLimits (r : Reply) (s : State) : Answer.keepsLimits s (replyRow r s) := by
  have answered : s.Retains { s with granted := s.granted.eraseP (matchesGrant r) } :=
    { State.Retains.refl s with granted := List.eraseP_sublist.length_le, map := rfl }
  refine State.unlessReset_keepsLimits fun running => ?_
  unfold State.takeReply
  split
  · rintro _ ⟨⟩
  · exact Answer.next_keepsLimits ((answered.lawful.trans (State.finish_lawful _ r _)).keepsLimits running)

theorem linearTable_valid (p : Fin 32) : linearTable[p].valid = true := by
  revert p
  decide

/-- The reset leaves every queue empty, every table linear and the control block alone in the map (R164). -/
theorem State.enterReset_keepsLimits (edge : Bool) (s : State) : s.KeepsLimits (s.enterReset edge) where
  limits _ := by
    refine ⟨Nat.zero_le _, Nat.zero_le _, Nat.zero_le _, fun o => ?_⟩
    simp [State.enterReset, State.initial, Output.initial, LineBuilder.initial]
  requests _ := ⟨fun _ => Nat.zero_le _, fun _ _ => Nat.zero_le _⟩
  tables _ k p := by
    have initial : (s.enterReset edge).banks[k] = ⟨linearTable, none⟩ := by simp [State.enterReset, State.initial]
    rw [initial]
    exact linearTable_valid p
  serials _ := ⟨fun _ m => absurd m List.not_mem_nil, fun _ m => absurd m List.not_mem_nil⟩
  map _ := State.mapHolds_of_alone (State.addressMap_length_of_empty
    (fun f => by simp [State.enterReset, State.initial, Feed.initial])
    fun o => by simp [State.enterReset, State.initial, Output.initial])

/-- The release moves the control block of a map that holds nothing else (R164, R199). -/
theorem State.release_keepsLimits {s : State} (resetting : s.resetting = true) (straps : BitVec 10) :
    s.KeepsLimits (s.release straps) := by
  have marked := State.markAll_retains
    { s with
      resetting := false, powerEdge := false, resetCause := if s.powerEdge then .power else .line, strap := straps }
  have sampled : s.KeepsLimits
      { s with
        resetting := false, powerEdge := false, resetCause := if s.powerEdge then .power else .line,
        strap := straps } :=
    ⟨id, id, id, id, fun map => State.mapHolds_of_alone (by
      have alone := map.2.2 resetting
      simpa only [State.addressMap_eq, List.length_cons] using alone)⟩
  have m := marked.lawful
  exact ⟨m.limits ∘ sampled.limits, m.requests ∘ sampled.requests, m.tables ∘ sampled.tables,
    m.serials ∘ sampled.serials, m.map rfl ∘ sampled.map⟩

/-- No command or event breaks the five rules. -/
theorem exec_keepsLimits (c : Instr) (s : State) : Answer.keepsLimits s (exec c s) := by
  cases c with
  | configureFeed w => exact cellRow_keepsLimits (fun w s => s.configureFeed_lawful w) 1 w s
  | enableFeed w => exact cellRow_keepsLimits (fun w s => s.enableFeed_lawful w) 2 w s
  | disableFeed w => exact cellRow_keepsLimits (fun w s => s.disableFeed_lawful w) 3 w s
  | rearmMonitor w => exact cellRow_keepsLimits (fun w s => s.rearmMonitor_lawful w) 4 w s
  | configureOutput w => exact cellRow_keepsLimits (fun w s => s.configureOutput_lawful w) 5 w s
  | startOutput w => exact cellRow_keepsLimits (fun w s => s.startOutput_lawful w) 6 w s
  | stopOutput w => exact cellRow_keepsLimits (fun w s => s.stopOutput_lawful w) 7 w s
  | setResponse w => exact cellRow_keepsLimits (fun w s => s.setResponse_lawful w) 8 w s
  | setSlate w => exact cellRow_keepsLimits (fun w s => s.setSlate_lawful w) 9 w s
  | forceMode w => exact cellRow_keepsLimits (fun w s => s.forceMode_lawful w) 10 w s
  | releaseMode w => exact cellRow_keepsLimits (fun w s => s.releaseMode_lawful w) 11 w s
  | loadCoefficients w => exact cellRow_keepsLimits (fun w s => s.loadCoefficients_lawful w) 12 w s
  | clearConditions w => exact cellRow_keepsLimits (fun w s => s.clearConditions_lawful w) 13 w s
  | setMasks w => exact cellRow_keepsLimits (fun w s => s.setMasks_lawful w) 14 w s
  | identify w => exact cellRow_keepsLimits (fun w s => (s.identify_retains w).lawful) 15 w s
  | deviceClear w => exact cellRow_keepsLimits (fun w s => s.deviceClear_lawful w) 16 w s
  | unknownCommand code w => exact cellRow_keepsLimits (State.runCommand_lawful code) code w s
  | malformedCommandWrite b | commandOverrun b | controlBlockWrite b | passthrough b | slateRegionWrite b
  | ingestWrite b | ingestRead b | outputRead b | refusedBurst b | outputWindowWrite b =>
    exact own_keepsLimits (s.presentBurst_lawful b)
  | ingestWriteResponse | forwardedResponse | slotRegionWriteResponse | slateWriteResponse
  | statusRecordWriteResponse | resultWordResponse | coefficientLoadCompletion | lineFillResponse
  | slateReadResponse => exact replyRow_keepsLimits _ s
  | memoryPortGrant => exact own_keepsLimits s.grant_lawful
  | lineBuildCompletion o => exact own_keepsLimits (s.buildCompletion_retains o).lawful
  | referencePulse r => exact own_keepsLimits (s.referencePulse_retains r).lawful
  | referenceAbsent r => exact own_keepsLimits (s.referenceAbsent_retains r).lawful
  | underflow o => exact own_keepsLimits (s.underflow_retains o).lawful
  | lossTimerExpiry f => exact own_keepsLimits (s.lossExpiry_retains f).lawful
  | powerUp | resetLine => exact Answer.next_keepsLimits (s.enterReset_keepsLimits _)
  | resetRelease straps =>
    refine Answer.next_keepsLimits ?_
    split
    · next resetting => exact State.release_keepsLimits resetting straps
    · exact ⟨id, id, id, id, id⟩
  | tick =>
    exact own_keepsLimits (act := fun s => s.settleTick.advance)
      (s.settleTick_retains.trans (State.advance_retains _)).lawful

theorem step_keepsLimits {s t : State} (next : step s = .next t) : s.KeepsLimits t := by
  cases queue : s.pending with
  | nil =>
    rw [step_of_pending_nil queue] at next
    cases next
    exact ⟨id, id, id, id, id⟩
  | cons c rest =>
    rw [step_of_pending_cons queue] at next
    have kept := exec_keepsLimits c { s with pending := rest } t next
    exact ⟨kept.limits, kept.requests, kept.tables, kept.serials, kept.map⟩

/-- Settles O59: what opens a burst, grants one, loads a table or places a region has been checked for it, and every
other operation retains what the five rules speak of. -/
theorem everyStepKeepsTheLimits : Obligations.EveryStepKeepsTheLimits :=
  ⟨fun _ _ holds next => (step_keepsLimits next).limits holds,
    fun _ _ holds next => (step_keepsLimits next).requests holds,
    fun _ _ holds next => (step_keepsLimits next).tables holds,
    fun _ _ holds next => (step_keepsLimits next).serials holds,
    fun _ _ holds next => (step_keepsLimits next).map holds⟩

end Sys2Proof.Machine
end

section
/-! The pins and the use counts (R75 to R77): what an operation must keep of the outputs' contexts and of the histories
so that every record's pin count stays the number of contexts that name it. -/

namespace Sys2Proof.Machine

/-! ### Counting pins -/

theorem pinsOf_all (f : FeedId) (n : SampleNo) (c : Contexts) :
    pinsOf f n c.all = pinsOf f n [c.heldWhole] + pinsOf f n [c.heldTop] + pinsOf f n [c.heldBottom]
      + pinsOf f n [c.frozen] + pinsOf f n [c.retired] := by
  simp only [Contexts.all, pinsOf_cons]
  omega

/-- The pins of the four outputs together. -/
def pinsIn (f : FeedId) (n : SampleNo) (xs : Vector Output 4) : Nat :=
  (allOutputs.map fun o => pinsOf f n xs[o].ctx.all).sum

theorem State.pinsOn_eq (f : FeedId) (n : SampleNo) (s : State) : s.pinsOn f n = pinsIn f n s.outputs := rfl

theorem pinsIn_congr {f : FeedId} {n : SampleNo} {xs ys : Vector Output 4}
    (h : ∀ o : OutId, pinsOf f n ys[o].ctx.all = pinsOf f n xs[o].ctx.all) : pinsIn f n ys = pinsIn f n xs := by
  unfold pinsIn
  exact congrArg List.sum (List.map_congr_left fun o _ => h o)

/-- The pins of the other outputs do not change with one output's contexts. -/
theorem pinsIn_apart {f : FeedId} {n : SampleNo} {xs ys : Vector Output 4} {o : OutId}
    (others : ∀ q, q ≠ o → ys[q] = xs[q]) : ∃ rest, pinsIn f n xs = rest + pinsOf f n xs[o].ctx.all ∧
      pinsIn f n ys = rest + pinsOf f n ys[o].ctx.all := by
  have split (zs : Vector Output 4) : pinsIn f n zs =
      ((allOutputs.erase o).map fun q => pinsOf f n zs[q].ctx.all).sum + pinsOf f n zs[o].ctx.all := by
    have named : o ∈ allOutputs := by
      clear others
      revert o
      decide
    unfold pinsIn
    rw [((List.perm_cons_erase named).map _).sum_eq, List.map_cons, List.sum_cons, Nat.add_comm]
  refine ⟨_, split xs, (split ys).trans ?_⟩
  have same : (allOutputs.erase o).map (fun q => pinsOf f n ys[q].ctx.all) =
      (allOutputs.erase o).map (fun q => pinsOf f n xs[q].ctx.all) :=
    List.map_congr_left fun q m => by
      have other : q ≠ o := ((by decide : allOutputs.Nodup).mem_erase_iff.1 m).1
      rw [others q other]
  rw [same]

/-! ### Use counts -/

/-- The use counts speak of the build in progress, the contexts and the output mode alone. -/
theorem Output.Uses.congr {x y : Output} (h : x.Uses) (build : y.builder.build = x.builder.build)
    (ctx : y.ctx = x.ctx) (mode : y.modes.mode = x.modes.mode) : y.Uses where
  idle := by rw [build, ctx]; exact h.idle
  retired := by rw [build, ctx]; exact h.retired
  held := by rw [build, ctx]; exact h.held
  frozen := by rw [ctx, mode]; exact h.frozen

/-- An output with no contexts and no build. -/
theorem Output.uses_of_empty {x : Output} (build : x.builder.build = none) (held : ∀ p, x.ctx.held p = none)
    (frozen : x.ctx.frozen = none) (retired : x.ctx.retired = none) : x.Uses where
  idle _ := ⟨retired, fun p y e => by simp [held p] at e⟩
  retired d z e := by simp [build] at e
  held d e := by simp [build] at e
  frozen e := by simp [frozen] at e

/-- A held context in use is that of the build in progress, and none is retired (R77). -/
theorem Output.Uses.of_held_used {x : Output} (h : x.Uses) {p : Parity} {y : Context} (held : x.ctx.held p = some y)
    (used : y.uses ≠ 0) : x.ctx.retired = none ∧ y.uses = 1 ∧ (∃ d, x.builder.build = some d ∧ d.parity = p) ∧
      ∀ q z, q ≠ p → x.ctx.held q = some z → z.uses = 0 := by
  cases build : x.builder.build with
  | none => exact absurd ((h.idle build).2 p y held) used
  | some d =>
    cases retired : x.ctx.retired with
    | some z => exact absurd ((h.retired d z build retired).2 p y held) used
    | none =>
      obtain ⟨⟨z, own, one⟩, others⟩ := h.held d build retired
      by_cases same : p = d.parity
      · subst same
        obtain rfl : y = z := Option.some.inj (held.symm.trans own)
        exact ⟨rfl, one, ⟨d, rfl, rfl⟩, others⟩
      · exact absurd (others p y same held) used

/-! ### Operations that leave the pins -/

/-- An operation that takes no context and gives none up: records keep their numbers and pins or leave, contexts keep
what they name, and the use counts stay in line with the builds. -/
structure State.PinsStay (s t : State) : Prop where
  records : ∀ (f : FeedId), ∀ r ∈ t.feeds[f].history, ∃ y ∈ s.feeds[f].history, y.number = r.number ∧ y.pins = r.pins
  named : ∀ (o : OutId) (f : FeedId) (n : SampleNo),
    pinsOf f n t.outputs[o].ctx.all = pinsOf f n s.outputs[o].ctx.all
  uses : ∀ o : OutId, s.outputs[o].Uses → t.outputs[o].Uses

namespace State.PinsStay

theorem of_kept {s t : State} (feeds : t.feeds = s.feeds := by simp) (outputs : t.outputs = s.outputs := by simp) :
    s.PinsStay t where
  records f r m := ⟨r, feeds ▸ m, rfl, rfl⟩
  named o f n := by rw [outputs]
  uses o h := by rw [outputs]; exact h

theorem refl (s : State) : s.PinsStay s := of_kept rfl rfl

theorem trans {s t u : State} (h : s.PinsStay t) (k : t.PinsStay u) : s.PinsStay u where
  records f r m := by
    obtain ⟨y, my, number, pins⟩ := k.records f r m
    obtain ⟨z, mz, number', pins'⟩ := h.records f y my
    exact ⟨z, mz, number'.trans number, pins'.trans pins⟩
  named o f n := (k.named o f n).trans (h.named o f n)
  uses o := k.uses o ∘ h.uses o

theorem foldl {α : Type} {g : State → α → State} (h : ∀ (s : State) (a : α), s.PinsStay (g s a)) :
    ∀ (l : List α) (s : State), s.PinsStay (l.foldl g s)
  | [], s => refl s
  | a :: l, s => (h s a).trans (foldl h l (g s a))

theorem pinsHold {s t : State} (h : s.PinsStay t) (k : s.pinsHold) : t.pinsHold := by
  refine ⟨fun f r m => ?_, fun o => h.uses o (k.2 o)⟩
  obtain ⟨y, my, number, pins⟩ := h.records f r m
  rw [← pins, k.1 f y my, number]
  exact (pinsIn_congr fun o => h.named o f r.number).symm

end State.PinsStay

/-- A write of one output that keeps what its contexts name. -/
theorem State.PinsStay.of_output {s t : State} {o : OutId} {x : Output} (feeds : t.feeds = s.feeds)
    (outputs : t.outputs = s.outputs.set o x)
    (named : ∀ f n, pinsOf f n x.ctx.all = pinsOf f n s.outputs[o].ctx.all)
    (uses : s.outputs[o].Uses → x.Uses) : s.PinsStay t := by
  have own : t.outputs[o] = x := by rw [outputs, vector_set_self]
  have others (q : OutId) (other : q ≠ o) : t.outputs[q] = s.outputs[q] := by
    rw [outputs]
    exact vector_set_other _ _ _ _ other
  refine ⟨fun f r m => ⟨r, feeds ▸ m, rfl, rfl⟩, fun q f n => ?_, fun q h => ?_⟩
  · by_cases same : q = o
    · rw [same, own]
      exact named f n
    · rw [others q same]
  · by_cases same : q = o
    · subst same
      rw [own]
      exact uses h
    · rw [others q same]
      exact h

/-- A write of one output that keeps its contexts, its build and its mode. -/
theorem State.modifyOutput_pinsStay {o : OutId} {g : Output → Output} {s : State}
    (build : (g s.outputs[o]).builder.build = s.outputs[o].builder.build)
    (ctx : (g s.outputs[o]).ctx = s.outputs[o].ctx) (mode : (g s.outputs[o]).modes.mode = s.outputs[o].modes.mode) :
    s.PinsStay (s.modifyOutput o g) :=
  .of_output (State.modifyOutput_feeds ..) (State.modifyOutput_outputs ..) (fun f n => by rw [ctx])
    fun h => h.congr build ctx mode

theorem State.modifyBuilder_pinsStay {o : OutId} {g : LineBuilder → LineBuilder} {s : State}
    (build : (g s.outputs[o].builder).build = s.outputs[o].builder.build) : s.PinsStay (s.modifyBuilder o g) :=
  State.modifyOutput_pinsStay build rfl rfl

theorem State.modifyModes_pinsStay {o : OutId} {g : Modes → Modes} {s : State}
    (mode : (g s.outputs[o].modes).mode = s.outputs[o].modes.mode) : s.PinsStay (s.modifyModes o g) :=
  State.modifyOutput_pinsStay rfl rfl mode

/-- A write of one feed whose records keep their numbers and pins, or leave. -/
theorem State.putFeed_pinsStay {f : FeedId} {x : Feed} {s : State}
    (records : ∀ r ∈ x.history, ∃ y ∈ s.feeds[f].history, y.number = r.number ∧ y.pins = r.pins) :
    s.PinsStay (s.putFeed f x) := by
  refine ⟨fun g r m => ?_, fun o g n => by rw [State.putFeed_outputs], fun o h => by rw [State.putFeed_outputs]; exact h⟩
  rw [State.putFeed_feeds] at m
  by_cases same : g = f
  · subst same
    rw [vector_set_self] at m
    exact records r m
  · have kept : (s.feeds.set f x)[g] = s.feeds[g] := vector_set_other _ _ _ _ same
    rw [kept] at m
    exact ⟨r, m, rfl, rfl⟩

theorem State.modifyFeed_pinsStay {f : FeedId} {g : Feed → Feed} {s : State}
    (history : (g s.feeds[f]).history = s.feeds[f].history) : s.PinsStay (s.modifyFeed f g) :=
  State.putFeed_pinsStay fun r m => ⟨r, history ▸ m, rfl, rfl⟩

/-! ### The rule through a change of one output -/

/-- An operation on one output that changes the pins as that output's contexts change keeps the rule. -/
theorem State.pinsHold_of_repins {s t : State} {o : OutId} {g : FeedId → SampleNo → Nat → Nat} (h : s.pinsHold)
    (others : ∀ q, q ≠ o → t.outputs[q] = s.outputs[q]) (pins : s.Repins g t)
    (balance : ∀ f n rest, g f n (rest + pinsOf f n s.outputs[o].ctx.all) = rest + pinsOf f n t.outputs[o].ctx.all)
    (uses : t.outputs[o].Uses) : t.pinsHold := by
  refine ⟨fun f r m => ?_, fun q => ?_⟩
  · rw [pins f] at m
    obtain ⟨y, my, rfl⟩ := List.mem_map.1 m
    obtain ⟨rest, before, after⟩ := pinsIn_apart (f := f) (n := y.number) others
    have count : y.pins = pinsIn f y.number s.outputs := h.1 f y my
    change g f y.number y.pins = pinsIn f y.number t.outputs
    rw [count, before, balance, after]
  · by_cases same : q = o
    · exact same ▸ uses
    · rw [others q same]
      exact h.2 q

/-- The outputs' rules and the pins' together: what a step starts from and keeps. -/
structure State.Pinned (s : State) : Prop where
  outputs : OutputsHold s.outputs
  pins : s.pinsHold

/-! ### A pulse (R63, R76, R77, R79, R135, R136) -/

theorem pinsOf_plain {x : Context} (a : x.a = none) (b : x.b = none) (f : FeedId) (n : SampleNo) :
    pinsOf f n [some x] = 0 := by
  simp [Context.pinsOn, Context.records, a, b]

section pulse
variable {o : OutId} {c : OutputConfig} {p : Pulse} {s t : State}

/-- At its start an output holds no context yet (R62). -/
theorem State.Pulsed.held_none_of_start (holds : OutputsHold s.outputs) (starting : p.cause = .start →
    s.outputs[o].state ≠ .running) (start : p.cause = .start) (q : Parity) : s.outputs[o].ctx.held q = none :=
  (holds o).held_none (starting start) q

/-- The pins of the frozen context after the frame boundary (R135, R136). -/
theorem Contexts.refrozen_pins {k : Contexts} {before now : Mode} (rule : before ≠ .freeze → k.frozen = none)
    (f : FeedId) (n : SampleNo) : pinsOf f n [(k.refrozen before now).frozen] + pinsOf f n [k.lost before now] =
      pinsOf f n [k.frozen] + pinsOf f n [k.gained before now] := by
  rw [Contexts.refrozen_frozen]
  by_cases entered : before = .freeze
  · have gained : k.gained before now = none := by simp [Contexts.gained, entered]
    rw [gained]
    by_cases now = .freeze <;> simp [Contexts.lost, *]
  · have lost : k.lost before now = none := by simp [Contexts.lost, entered]
    rw [lost, rule entered]
    cases k.gained before now <;> simp [entered]

/-- What the pulse leaves held, with the pins of each. -/
theorem State.Pulsed.held_pins (h : s.Pulsed o c p t) (holds : OutputsHold s.outputs)
    (starting : p.cause = .start → s.outputs[o].state ≠ .running) (f : FeedId) (n : SampleNo) (q : Parity) :
    pinsOf f n [t.outputs[o].ctx.held q] =
      if q = p.parity then (s.newest o c p).pinsOn f n else pinsOf f n [s.outputs[o].ctx.held q] := by
  rw [h.held q]
  split
  · exact pinsOf_some ..
  · split
    · next start =>
      rw [pinsOf_plain rfl rfl, State.Pulsed.held_none_of_start holds starting start.1 q, pinsOf_none]
    · rfl

theorem Output.Uses.frozen_rule {x : Output} (h : x.Uses) (mode : x.modes.mode ≠ .freeze) : x.ctx.frozen = none := by
  by_contra there
  exact mode (h.frozen (Option.isSome_iff_ne_none.2 there))

/-- The context replaced is retired while a build uses it, and then none was retired before (R76, R77). -/
theorem State.Pulsed.retired_pins (h : s.Pulsed o c p t) (uses : s.outputs[o].Uses) (f : FeedId) (n : SampleNo) :
    pinsOf f n [t.outputs[o].ctx.retired]
        + pinsOf f n [(s.outputs[o].ctx.held p.parity).filter fun y => y.uses = 0] =
      pinsOf f n [s.outputs[o].ctx.retired] + pinsOf f n [s.outputs[o].ctx.held p.parity] := by
  cases held : s.outputs[o].ctx.held p.parity with
  | none => rw [(h.latched.unretired held).1]; simp
  | some y =>
    rw [(h.latched.retired y held).1]
    by_cases used : y.uses = 0
    · simp [used, Option.filter_some]
    · rw [(uses.of_held_used held used).1]
      simp [used, Option.filter_some]

theorem State.Pulsed.balance (h : s.Pulsed o c p t) (holds : OutputsHold s.outputs) (uses : s.outputs[o].Uses)
    (starting : p.cause = .start → s.outputs[o].state ≠ .running) (f : FeedId) (n : SampleNo) (rest : Nat) :
    rest + pinsOf f n s.outputs[o].ctx.all
        + pinsOf f n [s.outputs[o].ctx.gained s.outputs[o].modes.mode (s.worked o c p).modes.mode]
        - pinsOf f n [s.outputs[o].ctx.lost s.outputs[o].modes.mode (s.worked o c p).modes.mode]
        + (s.newest o c p).pinsOn f n
        - pinsOf f n [(s.outputs[o].ctx.held p.parity).filter fun y => y.uses = 0] =
      rest + pinsOf f n t.outputs[o].ctx.all := by
  have frozen := Contexts.refrozen_pins (k := s.outputs[o].ctx) (now := (s.worked o c p).modes.mode)
    uses.frozen_rule f n
  rw [← State.worked_frozen, ← h.decision.2.1] at frozen
  have retired := h.retired_pins uses f n
  have whole := h.held_pins holds starting f n .whole
  have top := h.held_pins holds starting f n .top
  have bottom := h.held_pins holds starting f n .bottom
  rw [pinsOf_all, pinsOf_all]
  generalize p.parity = q at *
  cases q <;> simp only [Contexts.held, reduceCtorEq, if_true, if_false] at whole top bottom retired ⊢ <;> omega

theorem State.Pulsed.build (h : s.Pulsed o c p t) : t.outputs[o].builder.build = s.outputs[o].builder.build := by
  rw [h.builder]
  cases s.outputs[o].ctx.held p.parity <;> rfl

/-- The context retired after a pulse: the replaced one while a build uses it, else the one retired before (R76). -/
theorem State.Pulsed.retired_cases (h : s.Pulsed o c p t) :
    (∃ y, s.outputs[o].ctx.held p.parity = some y ∧ y.uses ≠ 0 ∧ t.outputs[o].ctx.retired = some y) ∨
      ((∀ y, s.outputs[o].ctx.held p.parity = some y → y.uses = 0) ∧
        t.outputs[o].ctx.retired = s.outputs[o].ctx.retired) := by
  cases held : s.outputs[o].ctx.held p.parity with
  | none => exact .inr ⟨by simp, (h.latched.unretired held).1⟩
  | some y =>
    have retired := (h.latched.retired y held).1
    by_cases used : y.uses = 0
    · exact .inr ⟨by simpa using used, by rwa [if_pos used] at retired⟩
    · exact .inl ⟨y, rfl, used, by rwa [if_neg used] at retired⟩

/-- A context held after a pulse is new, with no use, or was held for another parity before. -/
theorem State.Pulsed.held_cases (h : s.Pulsed o c p t) {q : Parity} {y : Context}
    (held : t.outputs[o].ctx.held q = some y) :
    y.uses = 0 ∨ (q ≠ p.parity ∧ s.outputs[o].ctx.held q = some y) := by
  rw [h.held q] at held
  split at held
  · cases held
    exact .inl rfl
  · next other =>
    split at held
    · cases held
      exact .inl rfl
    · exact .inr ⟨other, held⟩

/-- A pulse leaves a frozen context in FREEZE alone (R135, R136). -/
theorem State.Pulsed.frozen_mode (h : s.Pulsed o c p t) (uses : s.outputs[o].Uses)
    (there : t.outputs[o].ctx.frozen.isSome = true) : t.outputs[o].modes.mode = .freeze := by
  rw [h.decision.2.1, State.worked_frozen, Contexts.refrozen_frozen, Option.isSome_or, Bool.or_eq_true] at there
  rw [h.modes]
  rcases there with gained | kept
  · exact (Contexts.gained_isSome.1 gained).2.1
  · split at kept
    · cases kept
    · next stays =>
      by_contra left
      exact stays ⟨uses.frozen kept, left⟩

theorem State.Pulsed.uses (h : s.Pulsed o c p t) (holds : OutputsHold s.outputs) (uses : s.outputs[o].Uses)
    (starting : p.cause = .start → s.outputs[o].state ≠ .running) : t.outputs[o].Uses where
  idle idle := by
    obtain ⟨retired, unused⟩ := uses.idle (h.build ▸ idle)
    refine ⟨?_, fun q y held => (h.held_cases held).elim id fun old => unused q y old.2⟩
    rcases h.retired_cases with ⟨y, held, used, -⟩ | ⟨-, kept⟩
    · exact absurd (unused _ y held) used
    · exact kept.trans retired
  retired d z build retired := by
    rw [h.build] at build
    rcases h.retired_cases with ⟨y, held, used, own⟩ | ⟨-, kept⟩
    · obtain ⟨-, one, -, others⟩ := uses.of_held_used held used
      obtain rfl : y = z := Option.some.inj (own.symm.trans retired)
      exact ⟨one, fun q x held' => (h.held_cases held').elim id fun old => others q x old.1 old.2⟩
    · obtain ⟨one, unused⟩ := uses.retired d z build (kept ▸ retired)
      exact ⟨one, fun q x held' => (h.held_cases held').elim id fun old => unused q x old.2⟩
  held d build retired := by
    rw [h.build] at build
    rcases h.retired_cases with ⟨y, -, -, own⟩ | ⟨unused, kept⟩
    · exact absurd (own.symm.trans retired) (by simp)
    · obtain ⟨⟨y, held, one⟩, others⟩ := uses.held d build (kept ▸ retired)
      have apart : d.parity ≠ p.parity := fun same => by
        have := unused y (same ▸ held)
        omega
      have stays : t.outputs[o].ctx.held d.parity = s.outputs[o].ctx.held d.parity := by
        rw [h.held, if_neg apart, if_neg]
        rintro ⟨start, -⟩
        exact absurd (held.symm.trans (State.Pulsed.held_none_of_start holds starting start _)) (by simp)
      exact ⟨⟨y, stays.trans held, one⟩, fun q x other held' =>
        (h.held_cases held').elim id fun old => others q x other old.2⟩
  frozen := h.frozen_mode uses

/-- A pulse keeps the pins' rule (R75 to R77, R135, R136). -/
theorem State.Pulsed.pinsHold (h : s.Pulsed o c p t) (holds : OutputsHold s.outputs) (pins : s.pinsHold)
    (starting : p.cause = .start → s.outputs[o].state ≠ .running) : t.pinsHold := by
  refine State.pinsHold_of_repins pins (fun q other => ?_) h.repins
    (fun f n rest => h.balance holds (pins.2 o) starting f n rest) (h.uses holds (pins.2 o) starting)
  exact h.only (.output q) (by simp [feedParts, other])

end pulse

end Sys2Proof.Machine
end

section
/-! The pins through the blocks: the Line Builder, the Ingest Tracker, the pulses and the giving up of contexts. -/

namespace Sys2Proof.Machine

/-! ### The Line Builder -/

theorem State.feeds_of_changesOnly {ps : List Part} {s t : State} (h : s.changesOnly ps t)
    (apart : ∀ f : FeedId, Part.feed f ∉ ps) : t.feeds = s.feeds :=
  Vector.ext fun i small => h (.feed ⟨i, small⟩) (apart _)

theorem State.lookupAll_feeds (o : OutId) (b : Build) (ks : List CacheKey) (s : State) :
    (s.lookupAll o b ks).1.feeds = s.feeds :=
  State.feeds_of_changesOnly (State.lookupAll_changesOnly o b ks s) (by simp)

theorem State.lookupAll_pinsStay (o : OutId) (b : Build) (ks : List CacheKey) (s : State) :
    s.PinsStay (s.lookupAll o b ks).1 := .of_kept (s.lookupAll_feeds o b ks) (s.lookupAll_outputs o b ks)

theorem pinsOf_map {g : Context → Context} (names : ∀ x, (g x).records = x.records) (f : FeedId) (n : SampleNo)
    (x : Option Context) : pinsOf f n [x.map g] = pinsOf f n [x] := by
  cases x <;> simp [Context.pinsOn, names]

theorem pinsOf_changeHeld {g : Context → Context} (names : ∀ x, (g x).records = x.records) (f : FeedId) (n : SampleNo)
    (p : Parity) (k : Contexts) : pinsOf f n (k.changeHeld p g).all = pinsOf f n k.all := by
  have kept := pinsOf_map names f n
  cases p <;> simp only [pinsOf_all, Contexts.changeHeld, Contexts.setHeld, Contexts.held, kept]

theorem Contexts.changeHeld_held (p q : Parity) (g : Context → Context) (k : Contexts) :
    (k.changeHeld p g).held q = if q = p then (k.held p).map g else k.held q := by
  split
  · next same => rw [same, Contexts.changeHeld, Contexts.held_setHeld]
  · next other => rw [Contexts.changeHeld, Contexts.held_setHeld_other other]

theorem State.conceal_pinsStay (o : OutId) (s : State) : s.PinsStay (s.conceal o) := by
  unfold State.conceal
  split
  · exact .refl s
  · next b build =>
    split
    · refine (State.lookupAll_pinsStay o b _ s).trans (.of_output (State.modifyBuilder_feeds ..)
        (State.modifyBuilder_outputs ..) (fun _ _ => rfl) fun h => ?_)
      have old : (s.lookupAll o b (s.missingConceal b)).1.outputs[o].builder.build = some b := by
        rw [State.lookupAll_outputs, build]
      exact
        { idle := by rintro ⟨⟩
          retired := fun d z own => by
            cases own
            exact h.retired b z old
          held := fun d own => by
            cases own
            exact h.held b old
          frozen := h.frozen }
    · exact .refl s

/-- A context with one use more (R77). -/
def Context.used (x : Context) : Context := { x with uses := x.uses + 1 }

theorem Context.used_records (x : Context) : x.used.records = x.records := rfl

/-- A build that starts for the context held for a parity uses that context and no other (R77). -/
theorem Output.Uses.takenUp {x y : Output} {d : Build} {z : Context} (h : x.Uses) (idle : x.builder.build = none)
    (held : x.ctx.held d.parity = some z) (build : y.builder.build = some d)
    (ctx : y.ctx = x.ctx.changeHeld d.parity Context.used) (mode : y.modes.mode = x.modes.mode) : y.Uses := by
  obtain ⟨retired, unused⟩ := h.idle idle
  have kept : y.ctx.retired = none := by rw [ctx, Contexts.changeHeld, Contexts.setHeld_retired, retired]
  refine ⟨fun e => absurd (build.symm.trans e) (by simp), fun _ _ _ e => absurd (kept.symm.trans e) (by simp),
    fun e own _ => ?_, fun there => ?_⟩
  · obtain rfl : d = e := Option.some.inj (build.symm.trans own)
    refine ⟨⟨z.used, ?_, by simp [Context.used, unused _ z held]⟩, fun q u other e => ?_⟩
    · rw [ctx, Contexts.changeHeld_held, if_pos rfl, held, Option.map_some]
    · rw [ctx, Contexts.changeHeld_held, if_neg other] at e
      exact unused q u e
  · rw [ctx, Contexts.changeHeld, Contexts.setHeld_frozen] at there
    exact mode.trans (h.frozen there)

/-- A build that starts takes its context into use (R77). -/
theorem State.startBuild_pinsStay {o : OutId} {s : State} (idle : s.outputs[o].builder.build = none) (y : Nat) :
    s.PinsStay (s.startBuild o y) := by
  unfold State.startBuild
  dsimp only
  split
  · exact .refl s
  · next c _ =>
    split
    · next x fc held _ =>
      split
      · refine (State.lookupAll_pinsStay o _ _ s).trans (.of_output (State.modifyOutput_feeds ..)
          (State.modifyOutput_outputs ..) (fun f n => pinsOf_changeHeld Context.used_records f n _ _) fun h => ?_)
        simp only [State.lookupAll_outputs] at h ⊢
        exact h.takenUp idle held rfl rfl rfl
      · exact .refl s
    · exact .refl s

theorem State.answerHead_pinsStay (o : OutId) (bytes : List Byte) (touched : Option (Fin 2)) (s : State) :
    s.PinsStay (s.answerHead o bytes touched) := by
  unfold State.answerHead
  split
  · exact .refl s
  · exact State.PinsStay.trans (.of_kept) (State.modifyBuilder_pinsStay rfl)

theorem State.offerSlate_pinsStay (w : WaitingSlate) (s : State) : s.PinsStay (s.offerSlate w) :=
  .of_kept (by unfold State.offerSlate; split <;> simp)

theorem State.releaseSlate_pinsStay (s : State) : s.PinsStay s.releaseSlate :=
  have cleared : s.PinsStay { s with waitingSlate := [] } := .of_kept
  cleared.trans (.foldl (fun s w => s.offerSlate_pinsStay w) _ _)

theorem State.startRun_pinsStay (o : OutId) (page : Page) (s : State) : s.PinsStay (s.startRun o page) := by
  unfold State.startRun
  split
  · exact State.PinsStay.trans (State.modifyBuilder_pinsStay rfl) (.foldl (fun s _ => s.offerSlate_pinsStay _) _ _)
  · exact .refl s

/-- The head beat calls for a build when none is in progress (R109). -/
theorem Output.build_of_headCase {x : Output} {q : QueuedRead} {y : Nat} (h : x.headCase q = .build y) :
    x.builder.build = none := by
  cases idle : x.builder.build with
  | none => rfl
  | some b =>
    simp only [Output.headCase, idle, Option.isSome_some, if_true] at h
    repeat' split at h
    all_goals cases h

theorem State.serve_pinsStay (o : OutId) : ∀ (n : Nat) (s : State), s.PinsStay (State.serve n o s)
  | 0, s => .refl s
  | n + 1, s => by
    unfold State.serve
    split
    · exact .refl s
    · split
      · exact .refl s
      · split
        · exact (s.answerHead_pinsStay o _ _).trans (State.serve_pinsStay o n _)
        · exact .refl s
        · next headCase => exact State.startBuild_pinsStay (Output.build_of_headCase headCase) _
        · exact s.startRun_pinsStay o _

theorem State.takeHead_pinsStay (o : OutId) (s : State) : s.PinsStay (s.takeHead o) := State.serve_pinsStay o _ s

theorem State.answerRun_pinsStay (o : OutId) (r : SlateRun) : ∀ (n : Nat) (s : State),
    s.PinsStay (State.answerRun n o r s)
  | 0, s => .refl s
  | n + 1, s => by
    unfold State.answerRun
    split
    · exact .refl s
    · exact (s.answerHead_pinsStay o _ _).trans (State.answerRun_pinsStay o r n _)

theorem State.slateAnswer_pinsStay (o : OutId) (i : Nat) (beats : List ReadBeat) (s : State) :
    s.PinsStay (s.slateAnswer o i beats) := by
  unfold State.slateAnswer
  split
  · exact .refl s
  · generalize (if anyError beats then none else some (beatData beats)) = got
    dsimp only
    split
    · have counted (failed : Bool) : s.PinsStay (s.modifyOutput o fun x => if failed then x.fetchFailed else x) := by
        cases failed
        · exact State.modifyOutput_pinsStay rfl rfl rfl
        · exact State.modifyOutput_pinsStay rfl rfl rfl
      exact (((counted _).trans (State.answerRun_pinsStay o _ _ _)).trans
        (State.modifyBuilder_pinsStay rfl)).trans (State.takeHead_pinsStay o _)
    · exact State.modifyBuilder_pinsStay rfl

theorem Output.build_of_prefetches {x : Output} {y : Nat} (h : x.prefetches y = true) : x.builder.build = none := by
  unfold Output.prefetches at h
  split at h
  · cases h
  · simp only [Bool.and_eq_true, Option.isNone_iff_eq_none] at h
    exact h.1.2

theorem State.prefetch_pinsStay (o : OutId) (y : Nat) (s : State) : s.PinsStay (s.prefetch o y) := by
  unfold State.prefetch
  split
  · next due => exact State.startBuild_pinsStay (Output.build_of_prefetches due) y
  · exact .refl s

theorem State.fillAnswer_pinsStay (e : EntryId) (beats : List ReadBeat) (s : State) :
    s.PinsStay (s.fillAnswer e beats) := by
  have written (c : Cache) : s.PinsStay { s with cache := c } := .of_kept
  unfold State.fillAnswer
  dsimp only
  split
  · exact written _
  · refine (written _).trans (.foldl (fun s o => ?_) _ _)
    split
    · split
      · exact s.conceal_pinsStay o
      · exact .refl s
    · exact .refl s

/-! ### The completion of a build (R77, R116) -/

theorem LineBuilder.finish_build (i : Fin 2) (bytes : List Byte) (lb : LineBuilder) :
    (lb.finish i bytes).build = none := by
  unfold LineBuilder.finish
  split <;> rfl

/-- The context of a completed build counts its clips and one use less (R77, R80). -/
def Context.leave (clips : Nat) (x : Context) : Context := { x.addClips clips with uses := x.uses - 1 }

theorem Context.leave_records (clips : Nat) (x : Context) : (x.leave clips).records = x.records := rfl

/-- The state of a completion up to the release of a retired context (R116). -/
structure State.Completing (o : OutId) (b : Build) (s t : State) : Prop where
  feeds : t.feeds = s.feeds
  others : ∀ q, q ≠ o → t.outputs[q] = s.outputs[q]
  build : t.outputs[o].builder.build = none
  mode : t.outputs[o].modes.mode = s.outputs[o].modes.mode
  ctx : ∃ clips, t.outputs[o].ctx = s.outputs[o].ctx.changeUser b.parity (Context.leave clips)

theorem State.Completing.pinsHold {o : OutId} {b : Build} {s t : State} (h : s.Completing o b t)
    (build : s.outputs[o].builder.build = some b) (pins : s.pinsHold) : (t.releaseRetired o).pinsHold := by
  have uses := pins.2 o
  obtain ⟨clips, ctx⟩ := h.ctx
  have frozen : t.outputs[o].ctx.frozen = s.outputs[o].ctx.frozen := by
    rw [ctx, Contexts.changeUser]
    split
    · rfl
    · simp [Contexts.changeHeld]
  have own : t.outputs[o].ctx.frozen.isSome = true → t.outputs[o].modes.mode = .freeze := fun there => by
    rw [h.mode]
    exact uses.frozen (frozen ▸ there)
  cases retired : s.outputs[o].ctx.retired with
  | none =>
    have ctx : t.outputs[o].ctx = s.outputs[o].ctx.changeHeld b.parity (Context.leave clips) := by
      rw [ctx, Contexts.changeUser, retired]
    have none_ : t.outputs[o].ctx.retired = none := by
      rw [ctx, Contexts.changeHeld, Contexts.setHeld_retired, retired]
    have released : t.releaseRetired o = t := by
      unfold State.releaseRetired
      rw [none_]
    obtain ⟨⟨x, held, one⟩, others⟩ := uses.held b build retired
    rw [released]
    refine State.pinsHold_of_repins pins h.others (.of_feeds h.feeds) (fun f n rest => ?_)
      ⟨fun _ => ⟨none_, fun q y e => ?_⟩, fun d z e => absurd (h.build.symm.trans e) (by simp),
        fun d e => absurd (h.build.symm.trans e) (by simp), own⟩
    · rw [ctx, pinsOf_changeHeld (Context.leave_records clips)]
    · rw [ctx, Contexts.changeHeld_held] at e
      split at e
      · rw [held] at e
        cases e
        simp [Context.leave, one]
      · next other => exact others q y other e
  | some x =>
    have ctx : t.outputs[o].ctx = { s.outputs[o].ctx with retired := some (x.leave clips) } := by
      rw [ctx, Contexts.changeUser, retired]
    obtain ⟨one, unused⟩ := uses.retired b x build retired
    have released : t.releaseRetired o =
        (t.unpin (x.leave clips)).modifyContexts o fun c => { c with retired := none } := by
      have last : (x.leave clips).uses = 0 := by simp [Context.leave, one]
      have own : t.outputs[o].ctx.retired = some (x.leave clips) := by rw [ctx]
      unfold State.releaseRetired
      simp only [own, last, if_true]
    have self : (t.releaseRetired o).outputs[o] =
        { t.outputs[o] with ctx := { s.outputs[o].ctx with retired := none } } := by
      rw [released, State.modifyContexts_outputs, vector_set_self, State.unpin_outputs, ctx]
    refine State.pinsHold_of_repins (o := o) pins (fun q other => ?_)
      (((State.Repins.of_feeds h.feeds).trans (t.unpin_repins (x.leave clips))).feeds_eq
        (by rw [released, State.modifyContexts_feeds])) (fun f n rest => ?_) ?_
    · rw [released, State.modifyContexts_outputs, State.unpin_outputs, ← h.others q other]
      exact vector_set_other _ _ _ _ other
    · have named : (x.leave clips).pinsOn f n = x.pinsOn f n := rfl
      rw [self, named]
      simp only [pinsOf_all, retired, pinsOf_some, pinsOf_none]
      omega
    · rw [self]
      refine ⟨fun _ => ⟨rfl, unused⟩, fun d z e => absurd (h.build.symm.trans e) (by simp),
        fun d e => absurd (h.build.symm.trans e) (by simp), fun there => ?_⟩
      exact own (frozen ▸ there)

/-- Whether a build holds an entry that came back FAULTED (R107). -/
def State.faultyBuild (b : Build) (s : State) : Bool :=
  b.holds.any fun h => s.cache.entries[h.2].state = .faulted

/-- The output of a build that completes: its context left, its buffer settled, a fetch error counted (R116). -/
def Output.completed (b : Build) (line : List Byte × Nat) (faulty : Bool) (x : Output) : Output :=
  let y : Output :=
    { x with ctx := x.ctx.changeUser b.parity (Context.leave line.2), builder := x.builder.finish b.buffer line.1 }
  if faulty then y.fetchFailed else y

/-- The completion of a build up to the release of a retired context (R116). -/
def State.completing (o : OutId) (b : Build) (s : State) : State :=
  let s1 := s.modifyOutput o (Output.completed b (s.computeLine b) (s.faultyBuild b))
  let s2 := if s.faultyBuild b then s1.mark (.output o) else s1
  { s2 with cache := b.holds.foldl (fun (c : Cache) (h : CacheKey × EntryId) => c.release h.2) s2.cache }

/-- The completion of a build: what it settles, then the head beat and the prefetch (R116). -/
theorem State.completeBuild_eq (o : OutId) (b : Build) (s : State) :
    s.completeBuild o b = (((s.completing o b).releaseRetired o).takeHead o).prefetch o (b.line + 1) := rfl

theorem State.completing_outputs (o : OutId) (b : Build) (s : State) : (s.completing o b).outputs =
    s.outputs.set o (s.outputs[o].completed b (s.computeLine b) (s.faultyBuild b)) := by
  simp only [State.completing, apply_ite State.outputs, State.mark_outputs, ite_self, State.modifyOutput_outputs]

theorem State.completing_feeds (o : OutId) (b : Build) (s : State) : (s.completing o b).feeds = s.feeds := by
  simp only [State.completing, apply_ite State.feeds, State.mark_feeds, ite_self, State.modifyOutput_feeds]

theorem Output.completed_keeps (b : Build) (line : List Byte × Nat) (faulty : Bool) (x : Output) :
    (x.completed b line faulty).builder = x.builder.finish b.buffer line.1 ∧
      (x.completed b line faulty).modes = x.modes ∧
      (x.completed b line faulty).ctx = x.ctx.changeUser b.parity (Context.leave line.2) := by
  cases faulty <;> exact ⟨rfl, rfl, rfl⟩

theorem State.completing_isCompleting (o : OutId) (b : Build) (s : State) : s.Completing o b (s.completing o b) := by
  have own : (s.completing o b).outputs[o] = s.outputs[o].completed b (s.computeLine b) (s.faultyBuild b) := by
    rw [State.completing_outputs, vector_set_self]
  obtain ⟨builder, modes, ctx⟩ := s.outputs[o].completed_keeps b (s.computeLine b) (s.faultyBuild b)
  refine ⟨s.completing_feeds o b, fun q other => ?_, ?_, ?_, (s.computeLine b).2, own ▸ ctx⟩
  · rw [State.completing_outputs]
    exact vector_set_other _ _ _ _ other
  · rw [own, builder, LineBuilder.finish_build]
  · rw [own, modes]

theorem State.buildCompletion_pinsHold {s : State} (pins : s.pinsHold) (o : OutId) :
    (s.buildCompletion o).pinsHold := by
  unfold State.buildCompletion
  split
  · exact pins
  · next b build =>
    split
    · have flushed (t : State) : t.PinsStay t.flush := .of_kept
      rw [State.completeBuild_eq]
      exact (((State.takeHead_pinsStay o _).trans (State.prefetch_pinsStay o _ _)).trans (flushed _)).pinsHold
        ((s.completing_isCompleting o b).pinsHold build pins)
    · exact pins

end Sys2Proof.Machine
end

section
/-! The pins through the Ingest Tracker, the pulses, the commands and the memory path: every step keeps them. -/

namespace Sys2Proof.Machine

/-! ### The Ingest Tracker -/

theorem Modes.feedEvent_mode (e : FeedEvent) (m : Modes) : (m.feedEvent e).mode = m.mode := by
  have responded := Modes.respond_mode (m.table.target e) m
  cases e with
  | locked =>
    simp only [Modes.feedEvent, Modes.startOneShot]
    split <;> exact responded
  | lost => exact responded
  | seeking fromLost => cases fromLost <;> exact responded

theorem State.feedEvent_pinsStay (f : FeedId) (e : FeedEvent) (s : State) : s.PinsStay (s.feedEvent f e) :=
  .foldl (fun s o => by
    split
    · exact State.modifyModes_pinsStay (Modes.feedEvent_mode e _)
    · exact .refl s) _ s

/-- A history whose records keep their numbers and pins, or leave. -/
def KeepsRecords (h k : List SampleRecord) : Prop := ∀ r ∈ k, ∃ y ∈ h, y.number = r.number ∧ y.pins = r.pins

theorem keepsRecords_map {g : SampleRecord → SampleRecord} (number : ∀ r, (g r).number = r.number)
    (pins : ∀ r, (g r).pins = r.pins) (h : List SampleRecord) : KeepsRecords h (h.map g) := fun r m => by
  obtain ⟨y, my, rfl⟩ := List.mem_map.1 m
  exact ⟨y, my, (number y).symm, (pins y).symm⟩

theorem KeepsRecords.trans {h k l : List SampleRecord} (hk : KeepsRecords h k) (kl : KeepsRecords k l) :
    KeepsRecords h l := fun r m => by
  obtain ⟨y, my, number, pins⟩ := kl r m
  obtain ⟨z, mz, number', pins'⟩ := hk y my
  exact ⟨z, mz, number'.trans number, pins'.trans pins⟩

theorem Feed.endCurrent_keepsRecords (x : Feed) : KeepsRecords x.history x.endCurrent.history :=
  keepsRecords_map (fun r => by split <;> rfl) (fun r => by split <;> rfl) x.history

theorem Feed.settleFrame_keepsRecords (c : FeedConfig) (x : Feed) :
    KeepsRecords x.history (x.settleFrame c).feed.history := by
  unfold Feed.settleFrame
  split
  · exact x.endCurrent_keepsRecords.trans fun r m => ⟨r, List.mem_of_mem_filter m, rfl, rfl⟩
  · exact x.endCurrent_keepsRecords

theorem Feed.settle_keepsRecords (c : FeedConfig) (a : Anchor) (p : Parity) (x : Feed) :
    KeepsRecords x.history (x.settle c a p).feed.history := by
  cases a with
  | frame => exact x.settleFrame_keepsRecords c
  | second =>
    have same : KeepsRecords x.history x.history := fun r m => ⟨r, m, rfl, rfl⟩
    simp only [Feed.settle, Feed.settleSecond]
    split
    · split
      · exact same
      · exact x.settleFrame_keepsRecords c
    · exact same
    · exact x.settleFrame_keepsRecords c

/-- The new record of an anchor bears a number that no context names, and no pins (R10, R17; log entry 37). -/
theorem Feed.anchored_records (c : FeedConfig) (a : Anchor) (p : Parity) (now : Tick) (x : Feed) :
    ∀ r ∈ (x.anchored c a p now).1.history,
      (∃ y ∈ x.history, y.number = r.number ∧ y.pins = r.pins) ∨ (r.number = x.sampleCounter ∧ r.pins = 0) := by
  intro r m
  rcases List.mem_append.1 m with old | made
  · exact .inl (x.settle_keepsRecords c a p r old)
  · split at made
    · rw [List.mem_singleton.1 made]
      exact .inr ⟨rfl, rfl⟩
    · cases made

theorem State.anchor_pinsHold {s : State} (pins : s.pinsHold) (fresh : s.numbersFresh) (f : FeedId) (c : FeedConfig)
    (a : Anchor) (p : Parity) : (s.anchor f c a p).pinsHold := by
  have anchored (t : State) (feeds : t.feeds = s.feeds) (outputs : t.outputs = s.outputs) :
      (t.putFeed f (s.feeds[f].anchored c a p s.tick).1).pinsHold := by
    have outs : (t.putFeed f (s.feeds[f].anchored c a p s.tick).1).outputs = s.outputs :=
      (State.putFeed_outputs ..).trans outputs
    refine ⟨fun g r m => ?_, fun o => outs ▸ pins.2 o⟩
    rw [State.pinsOn_eq, outs]
    rw [State.putFeed_feeds, feeds] at m
    by_cases same : g = f
    · subst same
      rw [vector_set_self] at m
      rcases Feed.anchored_records c a p s.tick _ r m with ⟨y, my, number, count⟩ | ⟨number, none_⟩
      · rw [← count, pins.1 g y my, number]
        rfl
      · rw [none_, number]
        exact (fresh g).symm
    · have kept : (s.feeds.set f (s.feeds[f].anchored c a p s.tick).1)[g] = s.feeds[g] := vector_set_other _ _ _ _ same
      rw [kept] at m
      exact pins.1 g r m
  unfold State.anchor
  dsimp only
  refine (State.PinsStay.foldl (fun s e => s.feedEvent_pinsStay f e) _ _).pinsHold ?_
  split
  · exact anchored _ (State.notify_feeds ..) (State.notify_outputs ..)
  · exact anchored s rfl rfl

theorem State.takeAnchor_pinsHold {s : State} (pins : s.pinsHold) (fresh : s.numbersFresh) (f : FeedId)
    (c : FeedConfig) (x : Nat) : (s.takeAnchor f c x).pinsHold := by
  unfold State.takeAnchor
  split
  · exact pins
  · split
    · exact State.anchor_pinsHold pins fresh f c _ _
    · exact pins

theorem State.steerWrite_pinsStay (f : FeedId) (c : FeedConfig) (b : Burst) (s : State) :
    s.PinsStay (s.steerWrite f c b) := by
  unfold State.steerWrite
  dsimp only
  split
  · exact .of_kept
  · exact .of_kept

theorem State.ingestWrite_pinsHold {s : State} (pins : s.pinsHold) (fresh : s.numbersFresh) (f : FeedId) (b : Burst) :
    (s.ingestWrite f b).pinsHold := by
  unfold State.ingestWrite
  split
  · exact pins
  · exact (State.steerWrite_pinsStay f _ b _).pinsHold (State.takeAnchor_pinsHold pins fresh f _ _)

theorem State.ingestRead_pinsStay (f : FeedId) (b : Burst) (s : State) : s.PinsStay (s.ingestRead f b) := by
  unfold State.ingestRead
  split
  · exact .refl s
  · exact .of_kept

theorem Feed.markLines_keepsRecords (hf : Nat) (es : List (SampleNo × Nat)) (x : Feed) :
    KeepsRecords x.history (x.markLines hf es).history := by
  have marked (i : Nat) (r : SampleRecord) : (r.markLine hf i).number = r.number ∧ (r.markLine hf i).pins = r.pins := by
    unfold SampleRecord.markLine
    split <;> exact ⟨rfl, rfl⟩
  have fold (es : List (SampleNo × Nat)) : ∀ h : List SampleRecord,
      KeepsRecords h (es.foldl (fun h e => markEntry hf e h) h) := by
    induction es with
    | nil => exact fun h r m => ⟨r, m, rfl, rfl⟩
    | cons e es ih =>
      refine fun h => (keepsRecords_map (fun r => ?_) (fun r => ?_) h).trans (ih _)
      · split
        · exact (marked e.2 r).1
        · rfl
      · split
        · exact (marked e.2 r).2
        · rfl
  exact fold es x.history

theorem State.ingestResponse_pinsStay (a : IngestAccount) (resp : Resp) (s : State) :
    s.PinsStay (s.ingestResponse a resp) := by
  unfold State.ingestResponse
  refine State.PinsStay.trans ?_ (.foldl (fun s _ => .of_kept) _ _)
  split
  · exact State.modifyFeed_pinsStay rfl
  · exact State.putFeed_pinsStay (Feed.markLines_keepsRecords _ _ _)

theorem State.enterLost_pinsStay (f : FeedId) (s : State) : s.PinsStay (s.enterLost f) := by
  refine State.PinsStay.trans ?_ (State.feedEvent_pinsStay f .lost _)
  exact State.putFeed_pinsStay (Feed.endCurrent_keepsRecords _)

/-! ### Pulses and the tick -/

section pinned
variable {s : State} (h : s.Pinned)
include h

theorem State.offerPulse_pinned (r : Ref) (o : OutId) : (s.offerPulse r o).Pinned := by
  refine ⟨State.offerPulse_outputsHold h.outputs r o, ?_⟩
  by_cases taken : ∃ c cause, s.outputs[o].takesPulse r c cause
  · obtain ⟨c, cause, takes⟩ := taken
    refine (State.offerPulse_of_takes takes).pinsHold h.outputs h.pins fun start => ?_
    obtain ⟨-, -, ⟨-, starting⟩ | ⟨realign, -⟩⟩ := takes
    · rw [starting]
      simp
    · exact absurd (start.symm.trans realign) (by simp)
  · rw [State.offerPulse_of_not_takes fun c cause takes => taken ⟨c, cause, takes⟩]
    exact h.pins

theorem State.underflow_pinned (o : OutId) : (s.underflow o).Pinned := by
  refine ⟨State.underflow_outputsHold h.outputs o, ?_⟩
  cases due : s.outputs[o].underflowDue with
  | false =>
    rw [State.underflow_of_not_due due]
    exact h.pins
  | true =>
    obtain ⟨counting, left⟩ := (Output.underflowDue_iff _).1 due
    have running := (h.outputs o).counting.1 counting
    obtain ⟨c, config⟩ := Option.isSome_iff_exists.1 ((h.outputs o).configured.2 (by rw [running]; simp))
    exact (State.underflow_pulsed config counting left).pinsHold h.outputs h.pins fun start => by
      simp [Output.underflowPulse] at start

omit h in
theorem State.Pinned.stay {s t : State} (h : s.Pinned) (outputs : OutputsHold t.outputs) (stay : s.PinsStay t) :
    t.Pinned := ⟨outputs, stay.pinsHold h.pins⟩

omit h in
theorem State.Pinned.foldl {α : Type} {g : State → α → State}
    (keeps : ∀ (s : State) (a : α), s.Pinned → (g s a).Pinned) :
    ∀ (l : List α) (s : State), s.Pinned → (l.foldl g s).Pinned
  | [], _, h => h
  | a :: l, s, h => State.Pinned.foldl keeps l (g s a) (keeps s a h)

theorem State.putRef_pinned (r : Ref) (x : RefInput) : (s.putRef r x).Pinned :=
  h.stay (by rw [State.putRef_outputs]; exact h.outputs) .of_kept

theorem State.referencePulse_pinned (r : Ref) : (s.referencePulse r).Pinned :=
  .foldl (fun _ o k => State.offerPulse_pinned k r o) _ _ (State.putRef_pinned h r _)

omit h in
theorem State.referenceAbsent_pinsStay (r : Ref) (s : State) : s.PinsStay (s.referenceAbsent r) := by
  unfold State.referenceAbsent
  split
  · exact .of_kept
  · exact .refl s

theorem State.referenceAbsent_pinned (r : Ref) : (s.referenceAbsent r).Pinned :=
  h.stay (by rw [State.referenceAbsent_outputs]; exact h.outputs) (s.referenceAbsent_pinsStay r)

omit h in
theorem State.lossExpiry_pinsStay (f : FeedId) (s : State) : s.PinsStay (s.lossExpiry f) := by
  unfold State.lossExpiry
  split
  · exact s.enterLost_pinsStay f
  · exact .refl s

theorem State.settleTick_pinned : s.settleTick.Pinned :=
  .foldl (fun _ o k => State.underflow_pinned k o) _ _
    (.foldl (fun _ f k => k.stay (State.lossExpiry_outputsHold k.outputs f) (State.lossExpiry_pinsStay f _)) _ _
      (State.referenceAbsent_pinned (State.referenceAbsent_pinned h .refA) .refB))

omit h in
theorem State.advance_pinsStay (s : State) : s.PinsStay s.advance := by
  have ticked (o : OutId) : s.advance.outputs[o] = s.outputs[o].ticked := by simp [State.advance]
  have kept (x : Output) : x.ticked.builder = x.builder ∧ x.ticked.ctx = x.ctx ∧ x.ticked.modes = x.modes := by
    unfold Output.ticked
    split <;> exact ⟨rfl, rfl, rfl⟩
  refine ⟨fun f r m => ⟨r, by simpa [State.advance, Feed.ticked] using m, rfl, rfl⟩, fun o f n => ?_, fun o uses => ?_⟩
  · rw [ticked, (kept _).2.1]
  · obtain ⟨builder, ctx, modes⟩ := kept s.outputs[o]
    rw [ticked]
    exact uses.congr (by rw [builder]) ctx (by rw [modes])

/-! ### The commands -/

omit h in
theorem State.settle_pinsStay (c : CellId) (r : ResultCode) (d : Byte) (s : State) : s.PinsStay (s.settle c r d) :=
  .of_kept

theorem State.judge_pinsHold {c : CellId} {refusal : Refused} {act : State → State}
    (accepted : refusal = none → (act s).pinsHold) : (s.judge c refusal act).pinsHold := by
  unfold State.judge
  split
  · exact (s.settle_pinsStay c _ _).pinsHold h.pins
  · exact (State.settle_pinsStay c _ _ _).pinsHold (accepted rfl)

theorem State.onQuad_pinsHold {w : CellWrite} {act : Fin 4 → State → State} (k : ∀ t, (act t s).pinsHold) :
    (s.onQuad w act).pinsHold := by
  unfold State.onQuad
  split
  · exact (s.settle_pinsStay _ _ _).pinsHold h.pins
  · exact k _

omit h in
theorem State.mark_pinsStay (r : RecordSel) (s : State) : s.PinsStay (s.mark r) := .of_kept

theorem State.configureFeed_pinsHold (w : CellWrite) : (s.configureFeed w).pinsHold :=
  State.onQuad_pinsHold h fun f => State.judge_pinsHold h fun _ => by
    refine (State.PinsStay.trans ?_ (State.mark_pinsStay _ _)).pinsHold h.pins
    exact State.modifyFeed_pinsStay rfl

theorem State.enableFeed_pinsHold (w : CellWrite) : (s.enableFeed w).pinsHold := by
  refine State.onQuad_pinsHold h fun f => ?_
  split
  · exact (s.settle_pinsStay _ _ _).pinsHold h.pins
  · refine State.judge_pinsHold h fun _ => ((State.PinsStay.trans (State.PinsStay.trans ?_
      (State.feedEvent_pinsStay f _ _)) (State.mark_pinsStay _ _))).pinsHold h.pins
    exact State.modifyFeed_pinsStay rfl

/-- DISABLE_FEED discards the history with its pins (R25). -/
theorem State.disableFeed_pinsHold (w : CellWrite) : (s.disableFeed w).pinsHold := by
  have notified (p : CacheKey → Bool) (t : State) : t.PinsStay (t.notify p) := .of_kept
  refine State.onQuad_pinsHold h fun f => State.judge_pinsHold h fun _ =>
    ((State.PinsStay.trans (State.PinsStay.trans ?_ (notified _ _)) (State.mark_pinsStay _ _))).pinsHold h.pins
  exact State.putFeed_pinsStay fun r m => absurd m List.not_mem_nil

theorem State.rearmMonitor_pinsHold (w : CellWrite) : (s.rearmMonitor w).pinsHold :=
  State.onQuad_pinsHold h fun f => State.judge_pinsHold h fun _ => by
    refine (State.PinsStay.trans ?_ (State.mark_pinsStay _ _)).pinsHold h.pins
    exact State.modifyFeed_pinsStay rfl

omit h in
/-- An output that is not RUNNING has no frozen context, so its mode is free (R62). -/
theorem Output.Uses.of_stopped {x y : Output} (uses : x.Uses) (holds : x.Holds) (stopped : x.state ≠ .running)
    (build : y.builder.build = x.builder.build) (ctx : y.ctx = x.ctx) : y.Uses where
  idle := by rw [build, ctx]; exact uses.idle
  retired := by rw [build, ctx]; exact uses.retired
  held := by rw [build, ctx]; exact uses.held
  frozen there := by
    obtain ⟨-, -, -, none_, -⟩ := holds.contexts stopped
    rw [ctx, none_] at there
    cases there

/-- A write of the mode state of an output that is not RUNNING. -/
theorem State.modifyStopped_pinsStay {o : OutId} {g : Output → Output} (stopped : s.outputs[o].state ≠ .running)
    (build : (g s.outputs[o]).builder.build = s.outputs[o].builder.build)
    (ctx : (g s.outputs[o]).ctx = s.outputs[o].ctx) : s.PinsStay (s.modifyOutput o g) :=
  .of_output (State.modifyOutput_feeds ..) (State.modifyOutput_outputs ..) (fun f n => by rw [ctx])
    fun uses => uses.of_stopped (h.outputs o) stopped build ctx

theorem State.configureOutput_pinsHold (w : CellWrite) : (s.configureOutput w).pinsHold := by
  refine State.onQuad_pinsHold h fun o => State.judge_pinsHold h fun accepted => ?_
  have idle : s.outputs[o].live = false := by
    simpa using eq_true_of_need (eq_none_of_firstRefusal accepted _ (List.mem_cons_self ..))
  have stopped : s.outputs[o].state ≠ .running := fun running => by
    rw [Output.live, running] at idle
    cases idle
  have none_ : s.dropFrozen o = s := by
    unfold State.dropFrozen
    rw [((h.outputs o).contexts stopped).2.2.2.1]
  rw [none_]
  exact ((State.modifyStopped_pinsStay h stopped rfl rfl).trans (State.mark_pinsStay _ _)).pinsHold h.pins

theorem State.startOutput_pinsHold (w : CellWrite) : (s.startOutput w).pinsHold := by
  refine State.onQuad_pinsHold h fun o => ?_
  split
  · exact (s.settle_pinsStay _ _ _).pinsHold h.pins
  · refine State.judge_pinsHold h fun accepted => ?_
    have stopped : s.outputs[o].state = .stopped := by
      simpa using eq_true_of_need (eq_none_of_firstRefusal accepted _ (List.mem_cons_self ..))
    exact (State.modifyStopped_pinsStay h (by rw [stopped]; simp) rfl rfl).pinsHold h.pins

omit h in
theorem pinsOf_unused (f : FeedId) (n : SampleNo) (k : Contexts) : pinsOf f n (k.frozen :: k.unused) =
    pinsOf f n [k.frozen] + pinsOf f n [k.heldWhole.filter fun y => y.uses = 0]
      + pinsOf f n [k.heldTop.filter fun y => y.uses = 0] + pinsOf f n [k.heldBottom.filter fun y => y.uses = 0] := by
  simp only [Contexts.unused, List.map_cons, List.map_nil, pinsOf_cons]
  omega

omit h in
theorem pinsOf_filter_unused {f : FeedId} {n : SampleNo} {x : Option Context} (unused : ∀ y, x = some y → y.uses = 0) :
    pinsOf f n [x.filter fun y => y.uses = 0] = pinsOf f n [x] := by
  cases x with
  | none => rfl
  | some y => simp [Option.filter_some, unused y rfl]

omit h in
theorem pinsOf_filter_used {f : FeedId} {n : SampleNo} {x : Option Context} {y : Context} (own : x = some y)
    (used : y.uses ≠ 0) : pinsOf f n [x.filter fun y => y.uses = 0] = 0 := by
  simp [own, Option.filter_some, used]

omit h in
/-- The context retired by a stop: the held one in use, or else the one retired before (R76, R84). -/
theorem Output.Uses.retiredAfter_cases {x : Output} (uses : x.Uses) :
    ((∀ p y, x.ctx.held p = some y → y.uses = 0) ∧ x.ctx.retiredAfter = x.ctx.retired) ∨
      ∃ p y, x.ctx.held p = some y ∧ y.uses ≠ 0 ∧ x.ctx.retiredAfter = some y := by
  by_cases inUse : ∃ p y, x.ctx.held p = some y ∧ y.uses ≠ 0
  · obtain ⟨p, y, held, used⟩ := inUse
    exact .inr ⟨p, y, held, used, Contexts.retiredAfter_of_used held used (uses.of_held_used held used).2.2.2⟩
  · have unused : ∀ p y, x.ctx.held p = some y → y.uses = 0 := fun p y held => by
      by_contra used
      exact inUse ⟨p, y, held, used⟩
    exact .inl ⟨unused, Contexts.retiredAfter_of_unused unused⟩

omit h in
theorem Output.Uses.halted_balance {x : Output} (uses : x.Uses) (f : FeedId) (n : SampleNo) (rest : Nat) :
    rest + pinsOf f n x.ctx.all - pinsOf f n (x.ctx.frozen :: x.ctx.unused) =
      rest + pinsOf f n x.halted.ctx.all := by
  have halted : pinsOf f n x.halted.ctx.all = pinsOf f n [x.ctx.retiredAfter] := by
    simp [pinsOf_all, Output.halted]
  rw [halted, pinsOf_unused, pinsOf_all]
  rcases uses.retiredAfter_cases with ⟨unused, kept⟩ | ⟨p, y, held, used, own⟩
  · have whole := pinsOf_filter_unused (f := f) (n := n) (unused .whole)
    have top := pinsOf_filter_unused (f := f) (n := n) (unused .top)
    have bottom := pinsOf_filter_unused (f := f) (n := n) (unused .bottom)
    rw [kept]
    simp only [Contexts.held] at whole top bottom
    omega
  · obtain ⟨retired, -, -, others⟩ := uses.of_held_used held used
    have unused (q : Parity) (other : q ≠ p) := pinsOf_filter_unused (f := f) (n := n) (others q · other)
    have gone := pinsOf_filter_used (f := f) (n := n) held used
    rw [own, retired, ← held, pinsOf_none]
    cases p with
    | whole =>
      have top := unused .top (by simp)
      have bottom := unused .bottom (by simp)
      simp only [Contexts.held] at gone top bottom ⊢
      omega
    | top =>
      have whole := unused .whole (by simp)
      have bottom := unused .bottom (by simp)
      simp only [Contexts.held] at gone whole bottom ⊢
      omega
    | bottom =>
      have whole := unused .whole (by simp)
      have top := unused .top (by simp)
      simp only [Contexts.held] at gone whole top ⊢
      omega

omit h in
theorem Output.halted_held (x : Output) (p : Parity) : x.halted.ctx.held p = none := by cases p <;> rfl

omit h in
theorem Output.Uses.halted {x : Output} (uses : x.Uses) : x.halted.Uses where
  idle idle := by
    obtain ⟨retired, unused⟩ := uses.idle idle
    exact ⟨(Contexts.retiredAfter_of_unused unused).trans retired, fun p y e =>
      absurd (e.symm.trans (x.halted_held p)) (by simp)⟩
  retired d z build own := by
    refine ⟨?_, fun p y e => absurd (e.symm.trans (x.halted_held p)) (by simp)⟩
    have own : x.ctx.retiredAfter = some z := own
    rcases uses.retiredAfter_cases with ⟨-, kept⟩ | ⟨p, y, held, used, after⟩
    · exact (uses.retired d z build (kept ▸ own)).1
    · obtain rfl : y = z := Option.some.inj (after.symm.trans own)
      exact (uses.of_held_used held used).2.1
  held d build none_ := by
    exfalso
    have none_ : x.ctx.retiredAfter = none := none_
    rcases uses.retiredAfter_cases with ⟨unused, kept⟩ | ⟨p, y, held, used, after⟩
    · obtain ⟨⟨y, held, one⟩, -⟩ := uses.held d build (kept ▸ none_)
      have := unused _ y held
      omega
    · exact absurd (after.symm.trans none_) (by simp)
  frozen there := by cases there

theorem State.stopRunning_pinsHold (o : OutId) : (s.stopRunning o).pinsHold := by
  have uses := h.pins.2 o
  have own : (s.halt o).outputs[o] = s.outputs[o].halted := by rw [State.halt_outputs, vector_set_self]
  have halted : (s.halt o).pinsHold := by
    refine State.pinsHold_of_repins (o := o) h.pins (fun q other => ?_) (s.halt_repins o)
      (fun f n rest => ?_) ?_
    · rw [State.halt_outputs]
      exact vector_set_other _ _ _ _ other
    · rw [own]
      exact uses.halted_balance f n rest
    · rw [own]
      exact uses.halted
  have flushed (t : State) : t.PinsStay t.flush := .of_kept
  rw [State.stopRunning_eq]
  exact ((State.takeHead_pinsStay o _).trans (flushed _)).pinsHold halted

theorem State.stopOutput_pinsHold (w : CellWrite) : (s.stopOutput w).pinsHold := by
  refine State.onQuad_pinsHold h fun o => State.judge_pinsHold h fun _ => ?_
  split
  · exact State.stopRunning_pinsHold h o
  · next stopped => exact (State.modifyStopped_pinsStay h stopped rfl rfl).pinsHold h.pins

theorem State.setResponse_pinsHold (w : CellWrite) : (s.setResponse w).pinsHold :=
  State.onQuad_pinsHold h fun o => State.judge_pinsHold h fun _ => by
    refine (State.PinsStay.trans ?_ (State.mark_pinsStay _ _)).pinsHold h.pins
    exact State.modifyModes_pinsStay rfl

theorem State.setSlate_pinsHold (w : CellWrite) : (s.setSlate w).pinsHold :=
  State.onQuad_pinsHold h fun o => State.judge_pinsHold h fun _ => by
    refine (State.PinsStay.trans ?_ (State.mark_pinsStay _ _)).pinsHold h.pins
    exact State.modifyModes_pinsStay rfl

theorem State.forceMode_pinsHold (w : CellWrite) : (s.forceMode w).pinsHold :=
  State.onQuad_pinsHold h fun o => State.judge_pinsHold h fun _ => by
    refine (State.PinsStay.trans ?_ (State.mark_pinsStay _ _)).pinsHold h.pins
    exact State.modifyModes_pinsStay rfl

theorem State.releaseMode_pinsHold (w : CellWrite) : (s.releaseMode w).pinsHold :=
  State.onQuad_pinsHold h fun o => State.judge_pinsHold h fun _ => by
    refine (State.PinsStay.trans ?_ (State.mark_pinsStay _ _)).pinsHold h.pins
    exact State.modifyModes_pinsStay rfl

theorem State.loadCoefficients_pinsHold (w : CellWrite) : (s.loadCoefficients w).pinsHold := by
  have begun (k : BankId) (c : CellId) (page : Page) : s.PinsStay (s.beginLoad k c page) := .of_kept rfl rfl
  unfold State.loadCoefficients
  split
  · exact (s.settle_pinsStay _ _ _).pinsHold h.pins
  · split
    · exact (s.settle_pinsStay _ _ _).pinsHold h.pins
    · exact (begun _ _ _).pinsHold h.pins

omit h in
theorem State.clearWord_pinsStay (r : RecordSel) (snapshot mask : Conds) (s : State) :
    s.PinsStay (s.clearWord r snapshot mask) := by
  have conflicted (b : Bool) (t : State) (k : s.PinsStay t) :
      s.PinsStay (if b then t.setDevice clearConflict else t) := by
    have set : t.PinsStay (t.setDevice clearConflict) := .of_kept
    cases b
    · exact k
    · exact k.trans set
  cases r with
  | device => exact conflicted _ _ (.of_kept)
  | feed f => exact conflicted _ _ (State.modifyFeed_pinsStay rfl)
  | output o => exact conflicted _ _ (State.modifyOutput_pinsStay rfl rfl rfl)

theorem State.clearConditions_pinsHold (w : CellWrite) : (s.clearConditions w).pinsHold := by
  unfold State.clearConditions
  split
  · exact (s.settle_pinsStay _ _ _).pinsHold h.pins
  · exact ((s.clearWord_pinsStay _ _ _).trans (State.settle_pinsStay _ _ _ _)).pinsHold h.pins

omit h in
theorem State.setMask_pinsStay (r : RecordSel) (mask : Conds) (s : State) : s.PinsStay (s.setMask r mask) := by
  cases r with
  | device => exact .of_kept (by simp [State.setMask]) (by simp [State.setMask])
  | feed f =>
    rw [State.setMask]
    refine (s.mark_pinsStay (.feed f)).trans ?_
    exact State.modifyFeed_pinsStay rfl
  | output o =>
    rw [State.setMask]
    refine (s.mark_pinsStay (.output o)).trans ?_
    exact State.modifyOutput_pinsStay rfl rfl rfl

theorem State.setMasks_pinsHold (w : CellWrite) : (s.setMasks w).pinsHold := by
  unfold State.setMasks
  split
  · exact (s.settle_pinsStay _ _ _).pinsHold h.pins
  · exact ((s.setMask_pinsStay _ _).trans (State.settle_pinsStay _ _ _ _)).pinsHold h.pins

theorem State.identify_pinsHold (w : CellWrite) : (s.identify w).pinsHold := by
  refine State.PinsStay.pinsHold (.of_kept ?_ ?_) h.pins
  · unfold State.identify
    split <;> simp
  · simp

omit h in
theorem State.deviceClear_feeds (w : CellWrite) (s : State) : (s.deviceClear w).feeds = s.feeds.map Feed.cleared := by
  have black (o : OutId) (s : State) : (s.blackOut o).feeds = s.feeds := by
    unfold State.blackOut
    split
    · rfl
    · refine foldl_keeps State.feeds _ (fun _ _ => ?_) _ _
      rfl
  have aborted (c : CellId) (s : State) : (s.abortCells c).feeds = s.feeds := by
    refine foldl_keeps State.feeds _ (fun s d => ?_) _ _
    split <;> simp
  have all := foldl_keeps State.feeds _ (fun s o => black o s) allOutputs s
  simp [State.deviceClear, State.clearBlocks, all, aborted]

omit h in
/-- DEVICE_CLEAR leaves no record, no context and no build (R85, R120). -/
theorem State.deviceClear_pinsHold (w : CellWrite) (s : State) : (s.deviceClear w).pinsHold := by
  have cleared (o : OutId) : (s.deviceClear w).outputs[o] = s.outputs[o].cleared := by
    simp [State.deviceClear_outputs]
  refine ⟨fun f r m => ?_, fun o => ?_⟩
  · simp [State.deviceClear_feeds, Feed.cleared, Feed.initial] at m
  · rw [cleared]
    exact Output.uses_of_empty rfl (fun p => by cases p <;> rfl) rfl rfl

theorem State.runCommand_pinsHold (code : Byte) (w : CellWrite) : (s.runCommand code w).pinsHold := by
  unfold State.runCommand
  split
  · exact State.configureFeed_pinsHold h w
  · exact State.enableFeed_pinsHold h w
  · exact State.disableFeed_pinsHold h w
  · exact State.rearmMonitor_pinsHold h w
  · exact State.configureOutput_pinsHold h w
  · exact State.startOutput_pinsHold h w
  · exact State.stopOutput_pinsHold h w
  · exact State.setResponse_pinsHold h w
  · exact State.setSlate_pinsHold h w
  · exact State.forceMode_pinsHold h w
  · exact State.releaseMode_pinsHold h w
  · exact State.loadCoefficients_pinsHold h w
  · exact State.clearConditions_pinsHold h w
  · exact State.setMasks_pinsHold h w
  · exact State.identify_pinsHold h w
  · exact s.deviceClear_pinsHold w
  · exact (s.settle_pinsStay _ _ _).pinsHold h.pins

theorem State.runCommand_pinned (code : Byte) (w : CellWrite) : (s.runCommand code w).Pinned :=
  ⟨State.runCommand_outputsHold h.outputs code w, State.runCommand_pinsHold h code w⟩

theorem State.commandCell_pinned {run : CellWrite → State → State} {w : CellWrite}
    (keeps : ∀ s : State, s.Pinned → (run w s).Pinned) : (s.commandCell w run).Pinned := by
  unfold State.commandCell
  split
  · exact h.stay (by rw [State.setDevice_outputs]; exact h.outputs) .of_kept
  · exact keeps _ (h.stay (by rw [State.takeCell, State.putCell_outputs]; exact h.outputs)
      (.of_kept (by simp [State.takeCell]) (by simp [State.takeCell])))

/-! ### Bursts at the Bus Port -/

theorem State.offerCell_pinned (base : Nat) (b : Burst) (c : CellId) : (s.offerCell base b c).Pinned := by
  unfold State.offerCell
  split
  · exact State.commandCell_pinned h fun s k => State.runCommand_pinned k _ _
  · split
    · exact h.stay (by rw [State.setDevice_outputs]; exact h.outputs) .of_kept
    · exact h

theorem State.forward_pinned (b out : Burst) (kind : BusKind) (cells overruns : List CellId) :
    (s.forward b out kind cells overruns).Pinned :=
  h.stay (by rw [State.forward_outputs]; exact h.outputs) .of_kept

theorem State.controlWrite_pinned (b : Burst) : (s.controlWrite b).Pinned :=
  .foldl (fun _ c k => State.offerCell_pinned k _ b c) _ _ (State.forward_pinned h b b _ _ _)

omit h in
theorem State.refuse_pinsStay (b : Burst) (cond : Conds) (s : State) : s.PinsStay (s.refuse b cond) := by
  refine .of_kept ?_ (s.refuse_outputs b cond)
  simp only [State.refuse, State.flush_feeds, State.setDevice_feeds]
  split <;> simp

omit h in
theorem State.outputRead_pinsStay (o : OutId) (b : Burst) (s : State) : s.PinsStay (s.outputRead o b) := by
  have opened : s.PinsStay (s.openRead b [] false) := .of_kept
  have joined (q : QueuedRead) : s.PinsStay ((s.openRead b [] false).modifyBuilder o fun lb =>
      { lb with queue := lb.queue ++ [q] }) := opened.trans (State.modifyBuilder_pinsStay rfl)
  have flushed (t : State) : t.PinsStay t.flush := .of_kept
  unfold State.outputRead
  dsimp only
  split
  · exact .refl s
  · split
    · exact ((joined _).trans (State.takeHead_pinsStay o _)).trans (flushed _)
    · exact joined _

theorem State.dispatch_pinsHold (fresh : s.numbersFresh) (b : Burst) : (s.dispatch b).pinsHold := by
  apply State.dispatch_elim (P := State.pinsHold)
  case forwarded => exact fun kind _ => (State.forward_pinned h b b kind [] []).pins
  case controlWrite => exact fun _ => (State.controlWrite_pinned h b).pins
  case ingestWrite => exact fun f _ => State.ingestWrite_pinsHold h.pins fresh f b
  case ingestRead => exact fun f _ => (s.ingestRead_pinsStay f b).pinsHold h.pins
  case outputRead => exact fun o _ => (s.outputRead_pinsStay o b).pinsHold h.pins
  case refused => exact fun _ => (s.refuse_pinsStay b _).pinsHold h.pins
  case toWindow => exact fun _ => (s.refuse_pinsStay b _).pinsHold h.pins

omit h in
theorem State.numbersFresh_congr {s t : State} (feeds : t.feeds = s.feeds) (outputs : t.outputs = s.outputs)
    (fresh : s.numbersFresh) : t.numbersFresh := fun f => by
  rw [State.pinsOn_eq, outputs, feeds]
  exact fresh f

theorem State.putHeld_pinned (b : Burst) (x : Option Burst) : (s.putHeld b x).Pinned :=
  h.stay (by rw [State.putHeld_outputs]; exact h.outputs) .of_kept

theorem State.hold_pinsHold (b : Burst) : (s.hold b).pinsHold := by
  unfold State.hold
  split
  · exact (State.putHeld_pinned h b _).pins
  · exact h.pins

theorem State.presentBurst_pinsHold (fresh : s.numbersFresh) (b : Burst) : (s.presentBurst b).pinsHold := by
  unfold State.presentBurst
  split
  · exact State.dispatch_pinsHold (State.putHeld_pinned h b none)
      (State.numbersFresh_congr (State.putHeld_feeds ..) (State.putHeld_outputs ..) fresh) b
  · exact State.hold_pinsHold h b

theorem State.hostCommand_pinsHold {run : CellWrite → State → State} {w : CellWrite}
    (keeps : ∀ s : State, s.Pinned → (run w s).Pinned) (code : Byte) : (s.hostCommand code run w).pinsHold := by
  unfold State.hostCommand
  dsimp only
  split
  · exact (State.commandCell_pinned (State.forward_pinned (State.putHeld_pinned h _ none) _ _ _ _ _) keeps).pins
  · exact State.hold_pinsHold h _

/-! ### The arbiter and the responses -/

omit h in
theorem State.countUpdate_pinsStay (r : RecordSel) (s : State) : s.PinsStay (s.countUpdate r) := by
  cases r with
  | device => exact .of_kept rfl rfl
  | feed f =>
    refine ⟨fun g r m => ?_, fun _ _ _ => rfl, fun _ => id⟩
    by_cases same : g = f
    · subst same
      exact ⟨r, by simpa [State.countUpdate] using m, rfl, rfl⟩
    · have kept : (s.countUpdate (.feed f)).feeds[g] = s.feeds[g] := vector_set_other s.feeds f g _ same
      exact ⟨r, kept ▸ m, rfl, rfl⟩
  | output o => exact .of_output (o := o) rfl rfl (fun _ _ => rfl) fun uses => uses.congr rfl rfl rfl

omit h in
theorem State.setIdentify_pinsStay (x : IdentifyStage) (c : CellId) (s : State) : s.PinsStay (s.setIdentify x c) := by
  unfold State.setIdentify
  split
  · exact .refl s
  · exact .of_kept

omit h in
theorem State.grantThird_pinsStay (g : Housekeeping) (rest : List Housekeeping) (s : State) :
    s.PinsStay (s.grantThird g rest) := by
  have taken : s.PinsStay { s with class3 := rest } := .of_kept
  have granted (t : State) (n : BitVec 9) (write : Bool) (work : Work) : t.PinsStay (t.addGranted n write work) :=
    .of_kept
  cases g with
  | record r =>
    exact ((taken.trans (State.countUpdate_pinsStay r _)).trans
      (.foldl (fun s c => s.setIdentify_pinsStay _ c) _ _)).trans (granted _ _ _ _)
  | trace o i bytes => exact taken.trans (granted _ _ _ _)
  | result c word =>
    refine (taken.trans ?_).trans (granted _ _ _ _)
    split
    · exact .of_kept
    · exact .refl _
  | table k page => exact taken.trans (granted _ _ _ _)

omit h in
theorem State.offerThird_pinsStay (s : State) : s.PinsStay s.offerThird := by
  unfold State.offerThird
  split
  · exact .refl s
  · split
    · exact .refl s
    · exact s.grantThird_pinsStay _ _

omit h in
theorem State.grant_pinsStay (s : State) : s.PinsStay s.grant := by
  unfold State.grant
  split
  · exact .refl s
  · split
    · unfold State.grantFetch
      split
      · exact .refl s
      · exact .of_kept
    · split
      · exact s.offerThird_pinsStay
      · split
        · exact s.offerThird_pinsStay
        · exact .of_kept (by simp [State.grantForwarded]) (by simp [State.grantForwarded])

omit h in
theorem State.busEffect_pinsStay (r : Forwarded) (resp : Resp) (s : State) : s.PinsStay (s.busEffect r resp) := by
  unfold State.busEffect
  split
  · exact .refl s
  · exact .refl s
  · refine .foldl (fun s c => ?_) _ s
    unfold State.hostAnswered
    split
    · exact .refl s
    · exact .of_kept
  · exact .foldl (fun s _ => .of_kept) _ s
  · exact s.releaseSlate_pinsStay
  · exact s.ingestResponse_pinsStay _ resp

omit h in
theorem State.recordWritten_pinsStay (cells : List CellId) (s : State) : s.PinsStay (s.recordWritten cells) := by
  refine .foldl (fun s c => ?_) cells s
  unfold State.identified
  split
  · exact .refl s
  · split
    · exact (s.setIdentify_pinsStay _ c).trans (State.settle_pinsStay c _ _ _)
    · exact .refl s

omit h in
theorem State.resultWritten_pinsStay (c : CellId) (s : State) : s.PinsStay (s.resultWritten c) := by
  unfold State.resultWritten
  split
  · exact .refl s
  · split
    · exact .of_kept
    · exact .of_kept

omit h in
theorem State.loadComplete_pinsStay (k : BankId) (beats : List ReadBeat) (s : State) :
    s.PinsStay (s.loadComplete k beats) := by
  unfold State.loadComplete
  split
  · exact .refl s
  · dsimp only
    split
    · exact .of_kept
    · split
      · exact .of_kept
      · exact .of_kept

omit h in
theorem State.finish_pinsStay (w : Work) (r : Reply) (s : State) : s.PinsStay (s.finish w r) := by
  have flushed (t : State) : t.PinsStay t.flush := .of_kept
  have written (n : Nat) (resp : Resp) : s.PinsStay (s.answerWrite n resp) := .of_kept
  have readBack (n : Nat) (beats : List ReadBeat) : s.PinsStay (s.answerRead n beats) := .of_kept
  cases w with
  | bus x =>
    rw [State.finish]
    split
    · exact ((written _ _).trans (State.busEffect_pinsStay x _ _)).trans (flushed _)
    · exact (readBack _ _).trans (flushed _)
  | fetch o f =>
    cases f with
    | fill e => exact s.fillAnswer_pinsStay e (replyBeats r)
    | slate i => exact (s.slateAnswer_pinsStay o i (replyBeats r)).trans (flushed _)
  | record r bytes cells => exact s.recordWritten_pinsStay cells
  | result c => exact s.resultWritten_pinsStay c
  | table k => exact s.loadComplete_pinsStay k (replyBeats r)
  | trace | discarded => exact State.PinsStay.refl s

/-! ### The rows of the table -/

/-- What a step of the part answers keeps the pins' rule, where it is a next state. -/
def Answer.keepsPins (a : Answer) : Prop := ∀ t, a = .next t → t.pinsHold

omit h in
theorem Answer.next_keepsPins {t : State} (k : t.pinsHold) : Answer.keepsPins (.next t) := by
  rintro _ ⟨⟩
  exact k

theorem State.unlessReset_keepsPins {act : State → Answer} (k : Answer.keepsPins (act s)) :
    Answer.keepsPins (s.unlessReset act) := by
  unfold State.unlessReset
  split
  · exact Answer.next_keepsPins h.pins
  · exact k

theorem cellRow_keepsPins (code : Byte) (w : CellWrite) {run : CellWrite → State → State}
    (outputs : ∀ s, OutputsHold s.outputs → OutputsHold (run w s).outputs)
    (pins : ∀ s : State, s.Pinned → (run w s).pinsHold) : Answer.keepsPins (cellRow code run w s) :=
  State.unlessReset_keepsPins h (Answer.next_keepsPins
    (State.hostCommand_pinsHold h (fun s k => ⟨outputs s k.outputs, pins s k⟩) code))

theorem replyRow_keepsPins (r : Reply) : Answer.keepsPins (replyRow r s) := by
  have answered : s.PinsStay { s with granted := s.granted.eraseP (matchesGrant r) } := .of_kept rfl rfl
  refine State.unlessReset_keepsPins h ?_
  unfold State.takeReply
  split
  · rintro _ ⟨⟩
  · exact Answer.next_keepsPins ((answered.trans (State.finish_pinsStay _ r _)).pinsHold h.pins)

omit h in
theorem State.enterReset_pinsHold (edge : Bool) (s : State) : (s.enterReset edge).pinsHold := by
  have initial (o : OutId) : (s.enterReset edge).outputs[o] = Output.initial := by
    simp [State.enterReset, State.initial]
  refine ⟨fun f r m => ?_, fun o => ?_⟩
  · simp [State.enterReset, State.initial, Feed.initial] at m
  · rw [initial]
    exact Output.uses_of_empty rfl (fun p => by cases p <;> rfl) rfl rfl

/-- No command or event breaks the pins' rule. -/
theorem exec_keepsPins (fresh : s.numbersFresh) (i : Instr) : Answer.keepsPins (exec i s) := by
  have own {act : State → State} (k : (act s).pinsHold) :
      Answer.keepsPins (s.unlessReset fun s => .next (act s)) :=
    State.unlessReset_keepsPins h (Answer.next_keepsPins k)
  cases i with
  | configureFeed w =>
    exact cellRow_keepsPins h 1 w (fun s k => by simp [k]) fun s k => State.configureFeed_pinsHold k w
  | enableFeed w => exact cellRow_keepsPins h 2 w (fun s k => by simp [k]) fun s k => State.enableFeed_pinsHold k w
  | disableFeed w => exact cellRow_keepsPins h 3 w (fun s k => by simp [k]) fun s k => State.disableFeed_pinsHold k w
  | rearmMonitor w => exact cellRow_keepsPins h 4 w (fun s k => by simp [k]) fun s k => State.rearmMonitor_pinsHold k w
  | configureOutput w =>
    exact cellRow_keepsPins h 5 w (fun s k => by simp [k]) fun s k => State.configureOutput_pinsHold k w
  | startOutput w => exact cellRow_keepsPins h 6 w (fun s k => by simp [k]) fun s k => State.startOutput_pinsHold k w
  | stopOutput w => exact cellRow_keepsPins h 7 w (fun s k => by simp [k]) fun s k => State.stopOutput_pinsHold k w
  | setResponse w => exact cellRow_keepsPins h 8 w (fun s k => by simp [k]) fun s k => State.setResponse_pinsHold k w
  | setSlate w => exact cellRow_keepsPins h 9 w (fun s k => by simp [k]) fun s k => State.setSlate_pinsHold k w
  | forceMode w => exact cellRow_keepsPins h 10 w (fun s k => by simp [k]) fun s k => State.forceMode_pinsHold k w
  | releaseMode w => exact cellRow_keepsPins h 11 w (fun s k => by simp [k]) fun s k => State.releaseMode_pinsHold k w
  | loadCoefficients w =>
    exact cellRow_keepsPins h 12 w (fun s k => by simp [k]) fun s k => State.loadCoefficients_pinsHold k w
  | clearConditions w =>
    exact cellRow_keepsPins h 13 w (fun s k => by simp [k]) fun s k => State.clearConditions_pinsHold k w
  | setMasks w => exact cellRow_keepsPins h 14 w (fun s k => by simp [k]) fun s k => State.setMasks_pinsHold k w
  | identify w => exact cellRow_keepsPins h 15 w (fun s k => by simp [k]) fun s k => State.identify_pinsHold k w
  | deviceClear w => exact cellRow_keepsPins h 16 w (fun s k => by simp [k]) fun s _ => s.deviceClear_pinsHold w
  | unknownCommand code w =>
    exact cellRow_keepsPins h code w (fun s k => by simp [k]) fun s k => State.runCommand_pinsHold k code w
  | malformedCommandWrite b | commandOverrun b | controlBlockWrite b | passthrough b | slateRegionWrite b
  | ingestWrite b | ingestRead b | outputRead b | refusedBurst b | outputWindowWrite b =>
    exact own (act := State.presentBurst b) (State.presentBurst_pinsHold h fresh b)
  | ingestWriteResponse | forwardedResponse | slotRegionWriteResponse | slateWriteResponse
  | statusRecordWriteResponse | resultWordResponse | coefficientLoadCompletion | lineFillResponse
  | slateReadResponse => exact replyRow_keepsPins h _
  | memoryPortGrant => exact own (act := State.grant) (s.grant_pinsStay.pinsHold h.pins)
  | lineBuildCompletion o => exact own (act := State.buildCompletion o) (State.buildCompletion_pinsHold h.pins o)
  | referencePulse r => exact own (act := State.referencePulse r) (State.referencePulse_pinned h r).pins
  | referenceAbsent r => exact own (act := State.referenceAbsent r) (State.referenceAbsent_pinned h r).pins
  | underflow o => exact own (act := State.underflow o) (State.underflow_pinned h o).pins
  | lossTimerExpiry f => exact own (act := State.lossExpiry f) ((s.lossExpiry_pinsStay f).pinsHold h.pins)
  | powerUp | resetLine => exact Answer.next_keepsPins (State.enterReset_pinsHold _ s)
  | resetRelease straps =>
    refine Answer.next_keepsPins ?_
    split
    · exact State.PinsStay.pinsHold (.of_kept (by simp [State.release]) (by simp [State.release])) h.pins
    · exact h.pins
  | tick =>
    exact own (act := fun s => s.settleTick.advance)
      ((State.advance_pinsStay _).pinsHold (State.settleTick_pinned h).pins)

end pinned

theorem step_keepsPins {s t : State} (outputs : s.outputsHold) (pins : s.pinsHold) (fresh : s.numbersFresh)
    (next : step s = .next t) : t.pinsHold := by
  cases queue : s.pending with
  | nil =>
    rw [step_of_pending_nil queue] at next
    cases next
    exact pins
  | cons c rest =>
    rw [step_of_pending_cons queue] at next
    exact exec_keepsPins (s := { s with pending := rest }) ⟨outputs, pins⟩ fresh c t next

/-! ### One pin for each distinct record (R75) -/

/-- A context whose records are of one feed names each distinct record once. -/
theorem Context.pinsOn_of_one_feed {x : Context} (one : ∀ a b, x.a = some a → x.b = some b → a.feed = b.feed)
    (f : FeedId) (n : SampleNo) :
    ((∃ r, (x.a = some r ∨ x.b = some r) ∧ r.feed = f ∧ r.number = n) → x.pinsOn f n = 1) ∧
      ((∀ r, x.a = some r ∨ x.b = some r → r.feed = f → r.number ≠ n) → x.pinsOn f n = 0) := by
  unfold Context.pinsOn Context.records
  cases a : x.a with
  | none => cases b : x.b <;> simp_all
  | some ra =>
    cases b : x.b with
    | none => simp_all
    | some rb =>
      have feeds := one ra rb a b
      by_cases same : ra.number = rb.number
      · simp only [Option.some.injEq]
        simp +contextual [same, feeds]
      · refine ⟨?_, ?_⟩
        · rintro ⟨r, own | own, rfl, rfl⟩ <;> cases own <;> simp [same, feeds, Ne.symm same]
        · intro apart
          simpa [same] using And.intro (apart ra (.inl rfl)) (apart rb (.inr rfl))

/-- Settles O58: a pulse, a stop and a completed build change the pins as the contexts of their output change, an
anchor's record bears a number that no context names, and every other operation leaves pins and contexts. -/
theorem everyStepKeepsThePins : Obligations.EveryStepKeepsThePins :=
  ⟨fun _ _ outputs pins fresh next => step_keepsPins outputs pins fresh next,
    fun _ f n one => Context.pinsOn_of_one_feed one f n⟩

end Sys2Proof.Machine
end

section
/-! The selection of a CONVERT latch: the records that stand last before the target instant and first after it. -/

namespace Sys2Proof.Machine

/-! ### The neighbours of the target instant (R67, R68) -/

section neighbours
variable {t : Stamp} {h l r : List SampleRecord} {x : SampleRecord}

theorem recordA_eq_some (split : h = l ++ x :: r) (complete : x.status = .complete)
    (before : Stamp.atOrBefore x.stamp t = true)
    (last : ∀ y ∈ r, y.status = .complete → Stamp.atOrBefore y.stamp t = false) : recordA t h = some x := by
  have behind : (eligible r).filter (fun y => Stamp.atOrBefore y.stamp t) = [] := by
    simpa [eligible] using fun y mem at_ done => by simpa [at_] using last y mem done
  simp only [eligible] at behind
  simp [recordA, eligible, split, complete, before, behind]

theorem recordB_eq_some (split : h = l ++ x :: r) (complete : x.status = .complete)
    (after : Stamp.atOrBefore x.stamp t = false)
    (first : ∀ y ∈ l, y.status = .complete → Stamp.atOrBefore y.stamp t = true) : recordB t h = some x := by
  have ahead : (eligible l).find? (fun y => !Stamp.atOrBefore y.stamp t) = none := by
    simpa [eligible] using fun y mem done => first y mem done
  simp only [eligible] at ahead
  simp [recordB, eligible, split, complete, after, List.find?_append, ahead]

theorem recordA_eq_none (none_ : ∀ y ∈ h, y.status = .complete → Stamp.atOrBefore y.stamp t = false) :
    recordA t h = none := by
  simpa [recordA, eligible] using fun y mem at_ done => by simpa [at_] using none_ y mem done

theorem recordB_eq_none (none_ : ∀ y ∈ h, y.status = .complete → Stamp.atOrBefore y.stamp t = true) :
    recordB t h = none := by
  simpa [recordB, eligible] using fun y mem done => none_ y mem done

end neighbours

/-! ### The weight (R69 to R71) -/

theorem blendWeight_eq {sa sb t : Stamp} {w : Nat}
    (h : (w : Int) =
      max 0 (min ((Stamp.since t sa * 256 + Stamp.since sb sa / 2) / Stamp.since sb sa) 256)) :
    blendWeight sa sb t = w := by
  simp only [blendWeight, clampTo, ← h, Int.toNat_natCast]

theorem select_between {f : FeedId} {ps : Nat} {mode : Temporal} {t : Stamp} {h : List SampleRecord}
    {a b : SampleRecord} (before : recordA t h = some a) (after : recordB t h = some b) :
    select f ps mode t h =
      { kind := .convert, a := some (a.ref f), b := some (b.ref f)
        weight := if isGap ps a.stamp b.stamp || mode = .nearest then
          nearestWeight (blendWeight a.stamp b.stamp t) else blendWeight a.stamp b.stamp t
        flags := ⟨false, false, isGap ps a.stamp b.stamp, isGap ps a.stamp b.stamp || mode = .nearest⟩
        conds := if isGap ps a.stamp b.stamp then gapNearest else 0 } := by
  simp only [select, before, after]

/-- Settles O48: the records that the selection finds are the two that the statement names, and the weight is the
clamped quotient of R69. -/
theorem selectionWeighsTheNeighbours : Obligations.SelectionWeighsTheNeighbours := by
  intro f ps mode at_ h
  refine ⟨?both, ?onlyBefore, ?onlyAfter, ?neither⟩
  case both =>
    rintro a b h1 h2 g1 g2 span w splitA doneA before last splitB doneB after first rfl weight
    rw [select_between (recordA_eq_some splitA doneA before last) (recordB_eq_some splitB doneB after first),
      blendWeight_eq weight]
    simp [isGap, nearestWeight, gapNearest, bit, SampleRecord.ref]
  case onlyBefore =>
    intro a h1 h2 split done last all
    have before : recordA at_ h = some a :=
      recordA_eq_some split done (all a (by simp [split]) done) fun y mem done => absurd done (last y mem)
    rw [select, before, recordB_eq_none all]
    rfl
  case onlyAfter =>
    intro b g1 g2 split done first all
    have after : recordB at_ h = some b :=
      recordB_eq_some split done (all b (by simp [split]) done) fun y mem done => absurd done (first y mem)
    rw [select, recordA_eq_none all, after]
    rfl
  case neither =>
    intro none_
    rw [select, recordA_eq_none fun y mem done => absurd done (none_ y mem),
      recordB_eq_none fun y mem done => absurd done (none_ y mem)]
    rfl

end Sys2Proof.Machine
end

section
/-! The layout of the status records and of a trace entry: fields one after the other, little endian. -/

namespace Sys2Proof.Machine

/-! ### Fields -/

/-- The bytes of a sequence of fields, each given by its size and its number. -/
def fieldBytes (fields : List (Nat × Nat)) : List Byte := fields.flatMap fun x => leBytes x.1 x.2

/-- From byte `off` on, a list holds the fields one after the other. -/
def holdsFields (bytes : List Byte) : Nat → List (Nat × Nat) → Prop
  | _, [] => True
  | off, x :: rest => holdsAt bytes off x.1 x.2 ∧ holdsFields bytes (off + x.1) rest

@[simp] theorem length_leBytes (n v : Nat) : (leBytes n v).length = n := by
  induction n generalizing v with
  | zero => rfl
  | succ n ih => simp [leBytes, ih]

theorem getElem?_leBytes {n i : Nat} (v : Nat) (h : i < n) :
    (leBytes n v)[i]? = some (BitVec.ofNat 8 (v / 256 ^ i)) := by
  induction n generalizing v i with
  | zero => omega
  | succ n ih =>
    cases i with
    | zero => simp [leBytes]
    | succ i => simp [leBytes, ih (v / 256) (Nat.lt_of_succ_lt_succ h), Nat.pow_succ', Nat.div_div_eq_div_mul]

theorem leBytes_zero (n : Nat) : leBytes n 0 = zeros n := by
  induction n with
  | zero => rfl
  | succ n ih => simpa [leBytes, zeros, List.replicate_succ] using ih

theorem holdsFields_fieldBytes (fields : List (Nat × Nat)) (front : List Byte) :
    holdsFields (front ++ fieldBytes fields) front.length fields := by
  induction fields generalizing front with
  | nil => trivial
  | cons x rest ih =>
    refine ⟨fun i inside => ?_, ?_⟩
    · rw [List.getElem?_append_right (by omega), fieldBytes, List.flatMap_cons,
        List.getElem?_append_left (by simp; omega), Nat.add_sub_cancel_left, getElem?_leBytes _ inside]
    · simpa [fieldBytes, List.append_assoc] using ih (front ++ leBytes x.1 x.2)

theorem holdsFields_of_eq {bytes : List Byte} {fields : List (Nat × Nat)} (h : bytes = fieldBytes fields) :
    holdsFields bytes 0 fields := h ▸ holdsFields_fieldBytes fields []

theorem length_fieldBytes (fields : List (Nat × Nat)) :
    (fieldBytes fields).length = (fields.map (·.1)).sum := by
  simp [fieldBytes, List.length_flatMap]

theorem zeroAt_of_holdsAt {bytes : List Byte} {off n : Nat} (h : holdsAt bytes off n 0) :
    zeroAt bytes off (off + n) := fun i above below => by
  simpa [Nat.add_sub_cancel' above] using h (i - off) (by omega)

/-! ### The cell states (R205) -/

/-- A sum of distinct powers of two, each taken or not, is the number with those bits. -/
theorem sum_powers_eq_ofBits {n : Nat} (p : Fin n → Bool) :
    ((List.finRange n).map fun i => if p i then 2 ^ i.val else 0).sum = Nat.ofBits p := by
  induction n with
  | zero => rfl
  | succ n ih =>
    have doubled : ((List.finRange n).map fun i => if p i.succ then 2 ^ (i.val + 1) else 0).sum =
        2 * Nat.ofBits (p ∘ Fin.succ) := by
      rw [← ih, ← List.sum_map_mul_left]
      congr 2
      funext i
      split <;> simp [Nat.pow_succ', *]
    rw [List.finRange_succ, Nat.ofBits_succ, ← doubled]
    cases first : p 0 <;> simp [Function.comp_def, Nat.add_comm, first]

theorem State.testBit_cellBits (s : State) (c : CellId) : s.cellBits.testBit c.val = s.cells[c].isSome := by
  have all : allCells = List.finRange 16 := by decide
  rw [State.cellBits, all, sum_powers_eq_ofBits fun c => s.cells[c].isSome, Nat.testBit_ofBits_lt _ _ c.isLt]

/-- Bit `i` of a number that stands little endian from byte `off` on. -/
theorem getLsbD_of_holdsAt {bytes : List Byte} {off n v : Nat} (h : holdsAt bytes off n v) {i : Nat}
    (inside : i / 8 < n) : (bytes.getD (off + i / 8) 0).getLsbD (i % 8) = v.testBit i := by
  have bit : i % 8 < 8 := Nat.mod_lt _ (by decide)
  have power : 256 ^ (i / 8) = 2 ^ (8 * (i / 8)) := by rw [Nat.pow_mul]
  rw [List.getD_eq_getElem?_getD, h _ inside, Option.getD_some, BitVec.getLsbD_ofNat, power,
    Nat.testBit_div_two_pow, Nat.mod_add_div]
  simp [bit]

/-! ### The records as fields (R196 to R198, R205) -/

theorem State.deviceRecord_eq (s : State) : s.deviceRecord = fieldBytes
    [(2, 0x4C40), (1, 1), (1, s.resetCause.code), (2, s.strap.toNat),
      (1, s.refA.present.toNat + 2 * s.refB.present.toNat), (1, 0), (4, s.tick.toNat / 256),
      (2, s.deviceWord.toNat), (2, s.deviceMask.toNat), (2, s.cellBits), (44, 0), (2, s.deviceUpdates.toNat)] := by
  simp [State.deviceRecord, fieldBytes, ← leBytes_zero]
  rfl

theorem Feed.record_eq (x : Feed) : x.record = fieldBytes
    [(1, x.cadence.state.code), (1, x.config.isSome.toNat), (1, x.cadence.regularRun), (1, x.history.length),
      (4, x.cadence.period), (4, x.sampleCounter.toNat), (4, x.lastNumber), (1, x.cadence.irregularLeft), (1, 0),
      (2, x.discards), (2, x.partials), (2, x.cadence.irregularCount), (2, x.word.toNat), (2, x.mask.toNat),
      (34, 0), (2, x.updates.toNat)] := by
  simp [Feed.record, fieldBytes, ← leBytes_zero]

theorem Output.record_eq (x : Output) : x.record = fieldBytes
    [(1, x.state.code), (1, x.modes.mode.code), (1, x.modes.manual.toNat), (1, pendingCode x.modes.pending),
      (1, x.modes.injection.code), (1, x.modes.injectLeft), (1, x.modes.holdCount), (1, x.report.kind.code),
      (2, x.report.weight), (1, x.report.flags.code), (1, 0), (4, x.report.latchTick.toNat),
      (2, x.report.lastClip), (2, x.ctx.underruns), (2, x.report.fetchErrors), (1, x.ctx.traceIndex), (1, 0),
      (4, x.ctx.counter.toNat), (2, x.word.toNat), (2, x.mask.toNat), (30, 0), (2, x.updates.toNat)] := by
  unfold Output.record
  rw [← leBytes_zero, ← leBytes_zero]
  simp only [fieldBytes, List.flatMap_cons, List.flatMap_nil]
  simp only [List.append_assoc, List.append_nil]

theorem Context.traceEntry_eq (x : Context) : x.traceEntry = fieldBytes
    [(4, x.number.toNat), (4, traceNumber x.a), (4, traceNumber x.b), (2, x.weight), (1, x.kind.code),
      (1, x.flags.code + 64 * x.parity.traceCode)] := by
  simp [Context.traceEntry, fieldBytes]

/-! ### The codes (R202) -/

theorem presence_code (a b : Bool) :
    a.toNat + 2 * b.toNat = (if a then 1 else 0) + (if b then 2 else 0) := by
  cases a <;> cases b <;> rfl

theorem toNat_isSome {α : Type} (x : Option α) [Decidable (x = none)] :
    x.isSome.toNat = if x = none then 0 else 1 := by
  cases x <;> simp

theorem Flags.code_eq (f : Flags) : f.code = (if f.underrun then 1 else 0) + (if f.excess then 2 else 0) +
    (if f.gap then 4 else 0) + (if f.nearest then 8 else 0) := by
  obtain ⟨underrun, excess, gap, nearest⟩ := f
  cases underrun <;> cases excess <;> cases gap <;> cases nearest <;> rfl

/-! ### The settled layout -/

theorem length_of_fields {bytes : List Byte} {fields : List (Nat × Nat)} (h : bytes = fieldBytes fields) :
    bytes.length = (fields.map (·.1)).sum := h ▸ length_fieldBytes fields

/-- Settles O32: each record is its fields one after the other, and each field stands where the sizes before it
end. -/
theorem recordsAndTracesAreLaidOut : Obligations.RecordsAndTracesAreLaidOut := by
  refine ⟨?device, ?feed, ?output, ?trace⟩
  case device =>
    intro s d content
    have fields := content.trans s.deviceRecord_eq
    have laidOut := holdsFields_of_eq fields
    simp only [holdsFields, Nat.reduceAdd] at laidOut
    obtain ⟨part, revision, cause, strap, refs, gap, tick, word, mask, cells, rest, updates, -⟩ := laidOut
    refine ⟨(length_of_fields fields).trans (by simp), part, revision, cause, strap, presence_code _ _ ▸ refs,
      zeroAt_of_holdsAt gap, tick, word, mask, fun c => ?_, zeroAt_of_holdsAt rest, updates⟩
    rw [← s.testBit_cellBits c]
    exact getLsbD_of_holdsAt cells (by omega)
  case feed =>
    intro s f x d feed content
    subst feed
    have fields := content.trans s.feeds[f].record_eq
    have laidOut := holdsFields_of_eq fields
    simp only [holdsFields, Nat.reduceAdd] at laidOut
    obtain ⟨state, configured, regular, records, period, samples, last, left, gap, discards, partials, irregular,
      word, mask, rest, updates, -⟩ := laidOut
    refine ⟨(length_of_fields fields).trans (by simp), state, toNat_isSome s.feeds[f].config ▸ configured,
      regular, records, period, samples, fun none_ => ?_, fun n some_ => ?_, left, zeroAt_of_holdsAt gap,
      discards, partials, irregular, word, mask, zeroAt_of_holdsAt rest, updates⟩
    · rwa [Feed.lastNumber, none_] at last
    · rwa [Feed.lastNumber, some_] at last
  case output =>
    intro s o x d output content
    subst output
    have fields := content.trans s.outputs[o].record_eq
    have laidOut := holdsFields_of_eq fields
    simp only [holdsFields, Nat.reduceAdd] at laidOut
    obtain ⟨state, mode, manual, pending, injection, injectLeft, holdCount, kind, weight, flags, gap, latch, clip,
      underruns, errors, index, gap', counter, word, mask, rest, updates, -⟩ := laidOut
    refine ⟨(length_of_fields fields).trans (by simp), state, mode, ?_, ?_, injection, injectLeft, holdCount, kind,
      weight, Flags.code_eq _ ▸ flags, zeroAt_of_holdsAt gap, latch, clip, underruns, errors, index,
      zeroAt_of_holdsAt gap', counter, word, mask, zeroAt_of_holdsAt rest, updates⟩
    · rwa [Bool.toNat, Bool.cond_eq_ite] at manual
    · cases request : s.outputs[o].modes.pending with
      | none => rwa [request] at pending
      | some m =>
        rw [request] at pending
        cases m <;> exact pending
  case trace =>
    intro x d content
    have fields := content.trans x.traceEntry_eq
    have laidOut := holdsFields_of_eq fields
    simp only [holdsFields, Nat.reduceAdd] at laidOut
    obtain ⟨number, a, b, weight, kind, flags, -⟩ := laidOut
    refine ⟨(length_of_fields fields).trans (by simp), number, fun none_ => ?_, fun r some_ => ?_,
      fun none_ => ?_, fun r some_ => ?_, weight, kind, Flags.code_eq _ ▸ flags⟩
    · rwa [none_] at a
    · rwa [some_] at a
    · rwa [none_] at b
    · rwa [some_] at b

end Sys2Proof.Machine
end

section
/-! The frame-boundary work of a FRAME START pulse (R134 to R138) and its slate injection (R144). -/

namespace Sys2Proof.Machine

/-! ### The latest CONVERT context (R135; log entry 35) -/

/-- The context has the greater output sample number, by their signed difference, than the one that may stand. -/
def Context.leads (x : Context) (other : Option Context) : Prop :=
  ∀ y, other = some y → y.kind = .convert → 0 < (x.number - y.number).toInt

theorem SampleNo.before_of_pos {a b : SampleNo} (h : 0 < (a - b).toInt) : SampleNo.before b a = true := by
  simp only [SampleNo.before, decide_eq_true_eq]
  simp only [BitVec.toInt_sub, Int.bmod] at h ⊢
  omega

theorem SampleNo.not_before_of_pos {a b : SampleNo} (h : 0 < (a - b).toInt) : SampleNo.before a b = false := by
  simp only [SampleNo.before, decide_eq_false_iff_not]
  omega

theorem laterConvert_keeps {x : Context} {other : Option Context} (ahead : x.leads other) :
    laterConvert (some x) other = some x := by
  unfold laterConvert
  split
  · rfl
  · next y =>
    split
    · rfl
    · next convert => simp [SampleNo.not_before_of_pos (ahead y rfl (not_not.1 convert))]

theorem laterConvert_takes {x : Context} {best : Option Context} (convert : x.kind = .convert)
    (best_convert : ∀ y, best = some y → y.kind = .convert) (ahead : x.leads best) :
    laterConvert best (some x) = some x := by
  unfold laterConvert
  cases best with
  | none => simp [convert]
  | some y => simp [convert, SampleNo.before_of_pos (ahead y rfl (best_convert y rfl))]

theorem laterConvert_convert {best x : Option Context} (convert : ∀ y, best = some y → y.kind = .convert)
    (y : Context) (later : laterConvert best x = some y) : y.kind = .convert :=
  (laterConvert_some later).elim (convert y) And.right

theorem Context.leads_laterConvert {x : Context} {best other : Option Context} (ahead : x.leads best)
    (aheadOther : x.leads other) : x.leads (laterConvert best other) := fun y later convert =>
  (laterConvert_some later).elim (ahead y · convert) fun ⟨stands, _⟩ => aheadOther y stands convert

theorem Contexts.latestConvert_eq {k : Contexts} {p : Parity} {x : Context} (held : k.held p = some x)
    (convert : x.kind = .convert) (ahead : ∀ q, q ≠ p → x.leads (k.held q)) : k.latestConvert = some x := by
  have none_ : ∀ y : Context, none = some y → y.kind = .convert := fun y h => by cases h
  show laterConvert (laterConvert (laterConvert none (k.held .whole)) (k.held .top)) (k.held .bottom) = some x
  cases p with
  | whole =>
    rw [held, laterConvert_takes convert none_ (fun y h => by cases h),
      laterConvert_keeps (ahead .top (by simp)), laterConvert_keeps (ahead .bottom (by simp))]
  | top =>
    rw [held, laterConvert_takes convert (laterConvert_convert none_)
      (Context.leads_laterConvert (fun y h => by cases h) (ahead .whole (by simp))),
      laterConvert_keeps (ahead .bottom (by simp))]
  | bottom =>
    rw [held]
    exact laterConvert_takes convert (laterConvert_convert (laterConvert_convert none_))
      (Context.leads_laterConvert (Context.leads_laterConvert (fun y h => by cases h) (ahead .whole (by simp)))
        (ahead .top (by simp)))

/-! ### The modes after the frame-boundary work (R134, R137) -/

/-- The hold count after a counted frame below the limit, or at it. -/
def Modes.nextHold (m : Modes) : Nat := if m.holdCount < m.holdLimit then m.holdCount + 1 else m.holdCount

theorem Modes.countHold_of_unexpired {m : Modes} (limit : 0 < m.holdLimit)
    (unexpired : m.holdCount + 1 < m.holdLimit ∨ m.expired = true) :
    m.countHold = ({ m with holdCount := m.nextHold }, false) := by
  have stays : ¬ (m.holdLimit ≤ m.nextHold ∧ m.expired = false) := by
    rintro ⟨reached, fresh⟩
    rcases unexpired with below | expired
    · unfold Modes.nextHold at reached
      split at reached <;> omega
    · simp [expired] at fresh
  have quiet : ¬ (decide (m.holdLimit ≤ m.nextHold) && !m.expired) = true := by simpa using stays
  rw [Modes.countHold, if_neg (Nat.ne_of_gt limit)]
  exact if_neg quiet

theorem Modes.countHold_of_reached {m : Modes} (limit : 0 < m.holdLimit) (reached : m.holdLimit ≤ m.holdCount + 1)
    (fresh : m.expired = false) : m.countHold = ({ m with holdCount := m.nextHold, expired := true }, true) := by
  have expires : m.holdLimit ≤ m.nextHold := by
    unfold Modes.nextHold
    split <;> omega
  have now : (decide (m.holdLimit ≤ m.nextHold) && !m.expired) = true := by simpa [fresh] using expires
  rw [Modes.countHold, if_neg (Nat.ne_of_gt limit)]
  exact if_pos now

theorem Modes.countHold_of_endless {m : Modes} (endless : m.holdLimit = 0) :
    m.countHold = ({ m with holdCount := if m.holdCount < 255 then m.holdCount + 1 else 255 }, false) :=
  if_pos endless

theorem Modes.respond_pending (target : Option Mode) {m : Modes} (none_ : m.pending = none) :
    (m.respond target).pending = if m.manual then none else target := by
  unfold Modes.respond
  split
  · exact none_
  · cases target with
    | none => exact none_
    | some x => rfl

theorem Modes.respond_holdCount (target : Option Mode) (m : Modes) : (m.respond target).holdCount = m.holdCount := by
  unfold Modes.respond
  split
  · rfl
  · split <;> rfl

/-- The modes after the frame-boundary work, with the state of the feed (R134). -/
def Modes.bounded (feed : FeedState) (m : Modes) : Modes :=
  let n := { m with mode := m.taken, pending := none }
  if m.taken ≠ .freeze then n.zeroHold
  else if feed ≠ .lost then n
  else if n.countHold.2 then n.countHold.1.respond n.countHold.1.table.holdExpired
  else n.countHold.1

theorem Output.bounded_modes (feed : FeedState) (x : Output) : (x.bounded feed).modes = x.modes.bounded feed := by
  simp only [Output.bounded, Output.applyPending_eq, Output.refrozen, Output.hold, Modes.bounded]
  split
  · rfl
  · split
    · rfl
    · split <;> rfl

section modes
variable {feed : FeedState} {m : Modes}

theorem Modes.bounded_of_leaving (leaving : m.taken ≠ .freeze) :
    m.bounded feed = { m with mode := m.taken, pending := none, holdCount := 0, expired := false } :=
  if_pos leaving

variable (freeze : m.taken = .freeze)
include freeze

theorem Modes.bounded_of_present (present : feed ≠ .lost) :
    m.bounded feed = { m with mode := m.taken, pending := none } := by
  rw [Modes.bounded, if_neg (not_not.2 freeze), if_pos present]

theorem Modes.bounded_of_counted {n : Modes} (lost : feed = .lost)
    (counted : Modes.countHold { m with mode := m.taken, pending := none } = (n, false)) : m.bounded feed = n := by
  simp only [Modes.bounded, freeze, lost, ne_eq, not_true_eq_false, if_false] at counted ⊢
  simp [counted]

theorem Modes.bounded_of_expiring {n : Modes} (lost : feed = .lost)
    (counted : Modes.countHold { m with mode := m.taken, pending := none } = (n, true)) :
    m.bounded feed = n.respond n.table.holdExpired := by
  simp only [Modes.bounded, freeze, lost, ne_eq, not_true_eq_false, if_false] at counted ⊢
  simp [counted]

end modes

/-- The modes but for what the frame-boundary work may change. -/
def Modes.settled (m : Modes) : Modes := { m with mode := .convert, pending := none, holdCount := 0, expired := false }

theorem Modes.countHold_settled (m : Modes) : m.countHold.1.settled = m.settled := by
  rw [(Modes.countHold_eq m).1]
  rfl

theorem Modes.respond_settled (target : Option Mode) (m : Modes) : (m.respond target).settled = m.settled := by
  unfold Modes.respond
  split
  · rfl
  · split <;> rfl

theorem Modes.bounded_settled (feed : FeedState) (m : Modes) : (m.bounded feed).settled = m.settled := by
  unfold Modes.bounded
  dsimp only
  split
  · rfl
  · split
    · rfl
    · split
      · rw [Modes.respond_settled, Modes.countHold_settled]
        rfl
      · rw [Modes.countHold_settled]
        rfl

theorem Modes.bounded_mode (feed : FeedState) (m : Modes) : (m.bounded feed).mode = m.taken := by
  have counted := (Modes.countHold_eq { m with mode := m.taken, pending := none }).1
  unfold Modes.bounded
  dsimp only
  split
  · rfl
  · split
    · rfl
    · split
      · rw [Modes.respond_mode, counted]
      · rw [counted]

@[simp] theorem Modes.bounded_table (feed : FeedState) (m : Modes) : (m.bounded feed).table = m.table :=
  (congrArg Modes.table (m.bounded_settled feed) :)
@[simp] theorem Modes.bounded_manual (feed : FeedState) (m : Modes) : (m.bounded feed).manual = m.manual :=
  (congrArg Modes.manual (m.bounded_settled feed) :)
@[simp] theorem Modes.bounded_holdLimit (feed : FeedState) (m : Modes) : (m.bounded feed).holdLimit = m.holdLimit :=
  (congrArg Modes.holdLimit (m.bounded_settled feed) :)
@[simp] theorem Modes.bounded_slatePage (feed : FeedState) (m : Modes) : (m.bounded feed).slatePage = m.slatePage :=
  (congrArg Modes.slatePage (m.bounded_settled feed) :)
@[simp] theorem Modes.bounded_fill (feed : FeedState) (m : Modes) : (m.bounded feed).fill = m.fill :=
  (congrArg Modes.fill (m.bounded_settled feed) :)
@[simp] theorem Modes.bounded_injection (feed : FeedState) (m : Modes) : (m.bounded feed).injection = m.injection :=
  (congrArg Modes.injection (m.bounded_settled feed) :)
@[simp] theorem Modes.bounded_counting (feed : FeedState) (m : Modes) : (m.bounded feed).counting = m.counting :=
  (congrArg Modes.counting (m.bounded_settled feed) :)
@[simp] theorem Modes.bounded_injectN (feed : FeedState) (m : Modes) : (m.bounded feed).injectN = m.injectN :=
  (congrArg Modes.injectN (m.bounded_settled feed) :)
@[simp] theorem Modes.bounded_injectLeft (feed : FeedState) (m : Modes) : (m.bounded feed).injectLeft = m.injectLeft :=
  (congrArg Modes.injectLeft (m.bounded_settled feed) :)

/-! ### The injection (R144) and the conditions -/

/-- The evaluation of the injection changes its own state alone (R144). -/
theorem Modes.inject_keeps (m : Modes) :
    m.inject.1 =
      { m with
        injection := m.inject.1.injection, counting := m.inject.1.counting
        injectLeft := m.inject.1.injectLeft } := by
  unfold Modes.inject
  cases m.injection with
  | none_ => rfl
  | continuous => rfl
  | periodic => dsimp only; split <;> rfl
  | oneShot =>
    dsimp only
    split
    · rfl
    · split <;> rfl

section inject
variable {m : Modes}

theorem Modes.inject_of_none (kind : m.injection = .none_) : m.inject = (m, false, 0) := by
  simp [Modes.inject, kind]

theorem Modes.inject_of_continuous (kind : m.injection = .continuous) : m.inject = (m, true, 0) := by
  simp [Modes.inject, kind]

theorem Modes.inject_of_periodic (kind : m.injection = .periodic) :
    m.inject = ({ m with injectLeft := if m.injectLeft = 0 then m.injectN else m.injectLeft - 1 },
      decide (m.injectLeft = 0), 0) := by
  by_cases left : m.injectLeft = 0 <;> simp [Modes.inject, kind, left]

theorem Modes.inject_of_armed (kind : m.injection = .oneShot) (armed : m.counting = false) :
    m.inject = (m, false, 0) := by
  simp [Modes.inject, kind, armed]

theorem Modes.inject_of_counting (kind : m.injection = .oneShot) (counting : m.counting = true)
    (left : m.injectLeft ≠ 0) : m.inject = ({ m with injectLeft := m.injectLeft - 1 }, false, 0) := by
  simp [Modes.inject, kind, counting, left]

theorem Modes.inject_of_shown (kind : m.injection = .oneShot) (counting : m.counting = true)
    (left : m.injectLeft = 0) :
    m.inject = ({ m with injection := .none_, counting := false }, true, Machine.slateDone) := by
  simp [Modes.inject, kind, counting, left]

end inject

theorem Conds.ite_and (q : Prop) [Decidable q] (k mask : Conds) :
    (if q then k else 0) &&& mask = if q then k &&& mask else 0 := by
  split
  · rfl
  · exact BitVec.zero_and

section conds
variable (x : Context) (old : Option Context) (cause : PulseCause) (s t : Output)

theorem latchConds_and_modeChanged :
    latchConds x old cause s t &&& 0x0020 = if t.modes.mode ≠ s.modes.mode then 0x0020 else 0 := by
  simp only [latchConds, Conds.or_and_right, Conds.ite_and]
  simp

theorem latchConds_and_holdExpired : latchConds x old cause s t &&& 0x0040 =
    if t.modes.expired = true ∧ s.modes.expired = false then 0x0040 else 0 := by
  simp only [latchConds, Conds.or_and_right, Conds.ite_and]
  simp

theorem latchConds_and_slateDone : latchConds x old cause s t &&& 0x0080 =
    if s.modes.injection = .oneShot ∧ t.modes.injection = .none_ then 0x0080 else 0 := by
  simp only [latchConds, Conds.or_and_right, Conds.ite_and]
  simp

end conds

/-! ### An output at a FRAME START pulse -/

/-- What steps 1 to 3 of R63 make of an output, with the state of its feed. -/
structure Output.Framed (feed : FeedState) (x y : Output) : Prop where
  modes : y.modes = (x.modes.bounded feed).inject.1
  decision : y.ctx.decision = some ⟨x.modes.taken, (x.modes.bounded feed).inject.2.1⟩
  frozen : y.ctx.frozen = (x.ctx.refrozen x.modes.mode x.modes.taken).frozen
  word : ∃ z old cause, y.word = x.word ||| latchConds z old cause x y

theorem State.Pulsed.framed {o : OutId} {c : OutputConfig} {p : Pulse} {s t : State} (h : s.Pulsed o c p t)
    (start : p.frameStart = true) : s.outputs[o].Framed s.feeds[c.feed].cadence.state t.outputs[o] := by
  have worked : s.worked o c p = ((s.outputs[o].begun p.cause).bounded s.feeds[c.feed].cadence.state).decide :=
    Output.frameWorked_of_frameStart _ start _
  have mode : (s.worked o c p).modes.mode = s.outputs[o].modes.taken := by
    rw [State.worked, Output.frameWorked_mode, if_pos start]
    rfl
  obtain ⟨decision, frozen, -⟩ := h.decision
  refine ⟨?_, ?_, ?_, _, _, _, h.word⟩
  · rw [h.modes, worked]
    exact congrArg (·.inject.1) (Output.bounded_modes _ (s.outputs[o].begun p.cause))
  · rw [decision, worked]
    simp only [Output.decide, Output.bounded_modes, (Modes.inject_eq _).1, Modes.bounded_mode]
    rfl
  · rw [frozen, State.worked_frozen, mode]

section framed
variable {feed : FeedState} {x y : Output} (h : x.Framed feed y)
include h

/-- The hold count, its mark and the pending mode are those of the frame-boundary work. -/
theorem Output.Framed.hold : y.modes.holdCount = (x.modes.bounded feed).holdCount ∧
    y.modes.expired = (x.modes.bounded feed).expired ∧ y.modes.pending = (x.modes.bounded feed).pending := by
  rw [h.modes, Modes.inject_keeps]
  exact ⟨rfl, rfl, rfl⟩

theorem Output.Framed.mode : y.modes.mode = x.modes.taken := by
  rw [h.modes, (Modes.inject_eq _).1, Modes.bounded_mode]

theorem Output.Framed.modeChanged (changed : x.modes.taken ≠ x.modes.mode) : y.word &&& 0x0020 = 0x0020 := by
  obtain ⟨z, old, cause, word⟩ := h.word
  rw [word, Conds.or_and_right, latchConds_and_modeChanged, h.mode, if_pos changed]
  exact Conds.and_or_self _ _

theorem Output.Framed.holdExpired : y.word &&& 0x0040 = (x.word &&& 0x0040) |||
    if (x.modes.bounded feed).expired = true ∧ x.modes.expired = false then 0x0040 else 0 := by
  obtain ⟨z, old, cause, word⟩ := h.word
  rw [word, Conds.or_and_right, latchConds_and_holdExpired, h.hold.2.1]

theorem Output.Framed.holdExpired_of_same (same : (x.modes.bounded feed).expired = x.modes.expired) :
    y.word &&& 0x0040 = x.word &&& 0x0040 := by
  rw [h.holdExpired, same, if_neg (by simp)]
  exact BitVec.or_zero

theorem Output.Framed.holdExpired_of_expiring (now : (x.modes.bounded feed).expired = true)
    (fresh : x.modes.expired = false) : y.word &&& 0x0040 = 0x0040 := by
  rw [h.holdExpired, if_pos ⟨now, fresh⟩]
  exact Conds.and_or_self _ _

theorem Output.Framed.slateDone (before : x.modes.injection = .oneShot) (after : y.modes.injection = .none_) :
    y.word &&& 0x0080 = 0x0080 := by
  obtain ⟨z, old, cause, word⟩ := h.word
  rw [word, Conds.or_and_right, latchConds_and_slateDone, if_pos ⟨before, after⟩]
  exact Conds.and_or_self _ _

/-- The frozen context across a change of mode (R135, R136). -/
theorem Output.Framed.frozen_eq : y.ctx.frozen = (x.ctx.gained x.modes.mode x.modes.taken).or
    (if x.modes.mode = .freeze ∧ x.modes.taken ≠ .freeze then none else x.ctx.frozen) := by
  rw [h.frozen, Contexts.refrozen_frozen]

/-- A lost feed's hold past its limit expires. -/
theorem Output.Framed.expiring (freeze : x.modes.taken = .freeze) (lost : feed = .lost) (limit : 0 < x.modes.holdLimit)
    (reached : x.modes.holdLimit ≤ x.modes.holdCount + 1) (fresh : x.modes.expired = false) :
    y.modes.holdCount = x.modes.nextHold ∧ y.modes.expired = true ∧ y.word &&& 0x0040 = 0x0040 ∧
      y.modes.pending = if x.modes.manual then none else x.modes.table.holdExpired := by
  have bounded := Modes.bounded_of_expiring freeze lost (Modes.countHold_of_reached limit reached fresh)
  obtain ⟨count, expired, pending⟩ := h.hold
  have now : (x.modes.bounded feed).expired = true := by rw [bounded, Modes.respond_expired]
  refine ⟨?_, expired.trans now, h.holdExpired_of_expiring now fresh, ?_⟩
  · rw [count, bounded, Modes.respond_holdCount]
    rfl
  · rw [pending, bounded, Modes.respond_pending _ rfl]

/-- A lost feed's hold below its limit, or expired already, is counted alone. -/
theorem Output.Framed.unexpired (freeze : x.modes.taken = .freeze) (lost : feed = .lost) (limit : 0 < x.modes.holdLimit)
    (unexpired : x.modes.holdCount + 1 < x.modes.holdLimit ∨ x.modes.expired = true) :
    y.modes.holdCount = x.modes.nextHold ∧ y.modes.expired = x.modes.expired ∧ y.modes.pending = none ∧
      y.word &&& 0x0040 = x.word &&& 0x0040 := by
  have bounded := Modes.bounded_of_counted freeze lost (Modes.countHold_of_unexpired limit unexpired)
  obtain ⟨count, expired, pending⟩ := h.hold
  rw [bounded] at count expired pending
  exact ⟨count, expired, pending, h.holdExpired_of_same (by rw [bounded])⟩

end framed

/-- An output at a FRAME START pulse has done what the statements ask of one. -/
theorem Output.Framed.frameStarted {o : OutId} {c : OutputConfig} {s t : State}
    (h : s.outputs[o].Framed s.feeds[c.feed].cadence.state t.outputs[o]) : s.frameStarted o c t := by
  obtain ⟨count, expired, pending⟩ := h.hold
  refine
    { taken := ⟨h.mode, h.modeChanged⟩
      kept := ?kept
      leaving := fun leaving => ?leaving
      present := fun freeze present => ?present
      below := fun freeze lost limit below => ?below
      endless := fun freeze lost endless => ?endless
      above := fun freeze lost limit above fresh => ?above
      expired := fun freeze lost limit reached done => ?expired
      reached := fun freeze lost reached fresh => ?reached
      frozen := fun p x before freeze held convert latest => ?frozen
      nothing := fun before freeze none_ => ?nothing
      staying := fun same => ?staying
      none_ := fun kind => ?none
      continuous := fun kind => ?continuous
      periodic := fun kind => ?periodic
      armed := fun kind armed => ?armed
      counting := fun kind counting left => ?counting
      shown := fun kind counting left => ?shown }
  case kept =>
    rw [h.modes, Modes.inject_keeps]
    simp
  case leaving =>
    rw [count, expired, pending, Modes.bounded_of_leaving leaving, h.frozen_eq]
    refine ⟨rfl, rfl, rfl, fun before => ?_⟩
    rw [if_pos ⟨before, leaving⟩, Contexts.gained, if_neg fun enter => enter.1 before]
    rfl
  case present =>
    rw [count, expired, pending, Modes.bounded_of_present freeze present]
    exact ⟨rfl, rfl, rfl⟩
  case below =>
    obtain ⟨count, rest⟩ := h.unexpired freeze lost limit (.inl below)
    exact ⟨count.trans (if_pos (Nat.lt_of_succ_lt below)), rest⟩
  case endless =>
    have bounded := Modes.bounded_of_counted freeze lost (Modes.countHold_of_endless endless)
    have word := h.holdExpired_of_same (by rw [bounded])
    rw [bounded] at count expired pending
    exact ⟨count, expired, pending, word⟩
  case above =>
    obtain ⟨count, rest⟩ := h.expiring freeze lost limit (Nat.le_succ_of_le above) fresh
    exact ⟨count.trans (if_neg (Nat.not_lt.2 above)), rest⟩
  case expired =>
    obtain ⟨count, same, rest⟩ := h.unexpired freeze lost limit (.inr done)
    refine ⟨count.trans ?_, same.trans done, rest⟩
    unfold Modes.nextHold
    split <;> omega
  case reached =>
    obtain ⟨count, rest⟩ := h.expiring freeze lost (by omega) (by omega) fresh
    refine ⟨count.trans ?_, rest⟩
    rw [Modes.nextHold, if_pos (by omega), reached]
  case frozen =>
    have latest := Contexts.latestConvert_eq held convert fun q other y => latest q y other
    rw [h.frozen_eq, Contexts.gained, if_pos ⟨before, freeze⟩, Contexts.frozenCopy, latest]
    rfl
  case nothing =>
    have gained : s.outputs[o].ctx.gained s.outputs[o].modes.mode s.outputs[o].modes.taken = none := by
      rw [← Option.not_isSome_iff_eq_none, Contexts.gained_isSome]
      rintro ⟨-, -, q, y, held, convert⟩
      exact none_ q y held convert
    rw [h.frozen_eq, gained, if_neg fun leave => before leave.1]
    rfl
  case staying =>
    rw [h.frozen_eq, Contexts.gained, if_neg fun enter => enter.1 (same.2 enter.2),
      if_neg fun leave => leave.2 (same.1 leave.1)]
    rfl
  case none =>
    rw [h.modes, h.decision, Modes.inject_of_none ((Modes.bounded_injection ..).trans kind)]
    exact ⟨(Modes.bounded_injection ..).trans kind, Modes.bounded_injectLeft .., Modes.bounded_counting .., rfl⟩
  case continuous =>
    rw [h.modes, h.decision, Modes.inject_of_continuous ((Modes.bounded_injection ..).trans kind)]
    exact ⟨(Modes.bounded_injection ..).trans kind, rfl⟩
  case periodic =>
    rw [h.modes, h.decision, Modes.inject_of_periodic ((Modes.bounded_injection ..).trans kind)]
    simp only [Modes.bounded_injectLeft, Modes.bounded_injectN, Modes.bounded_injection]
    exact ⟨kind, trivial, rfl⟩
  case armed =>
    rw [h.modes, h.decision, Modes.inject_of_armed ((Modes.bounded_injection ..).trans kind)
      ((Modes.bounded_counting ..).trans armed)]
    exact ⟨(Modes.bounded_injection ..).trans kind, (Modes.bounded_counting ..).trans armed,
      Modes.bounded_injectLeft .., rfl⟩
  case counting =>
    rw [h.modes, h.decision, Modes.inject_of_counting ((Modes.bounded_injection ..).trans kind)
      ((Modes.bounded_counting ..).trans counting) (by rwa [Modes.bounded_injectLeft])]
    simp only [Modes.bounded_injectLeft, Modes.bounded_counting, Modes.bounded_injection]
    exact ⟨kind, counting, trivial, rfl⟩
  case shown =>
    have shown := Modes.inject_of_shown ((Modes.bounded_injection s.feeds[c.feed].cadence.state _).trans kind)
      ((Modes.bounded_counting ..).trans counting) ((Modes.bounded_injectLeft ..).trans left)
    have injection : t.outputs[o].modes.injection = .none_ := by rw [h.modes, shown]
    refine ⟨injection, ?_, h.slateDone kind injection, ?_⟩
    · rw [h.modes, shown]
    · rw [h.decision, shown]
      rfl

/-- Settles O43: each FRAME START pulse is a latch that does the frame-boundary work of its output, and the turns of
the other outputs leave it. -/
theorem frameStartTakesTheModeAndTheSlate : Obligations.FrameStartTakesTheModeAndTheSlate := by
  refine ⟨fun o c s run config counting left next => ?_, fun r s run => ?_⟩
  · have pulsed := State.underflow_pulsed config counting left
    exact ⟨_, exec_underflow run o, (pulsed.framed (decide_eq_true next)).frameStarted⟩
  · refine ⟨s.offered r 4, exec_referencePulse run r, fun o c cause takes => Output.Framed.frameStarted ?_⟩
    obtain ⟨g, pins⟩ := s.offered_feeds r (Nat.le_of_lt o.isLt)
    have framed := (State.offered_pulsed takes).framed (by simp [OutputConfig.firstPulse])
    rw [State.offered_output_before r s (Nat.le_of_lt o.isLt) o (Nat.le_refl _), pins c.feed] at framed
    rw [State.offered_output_after r s (Nat.le_refl _) o o.isLt]
    exact framed

end Sys2Proof.Machine
end

section
/-! The start of a build: the writes that no record shows, the lookups of the tap lines, and what the build fixes. -/

namespace Sys2Proof.Machine

/-! ### Writes that no status record shows -/

theorem State.noticeHolds_setOutput {o : OutId} {x : Output} {s : State} (holds : s.noticeHolds)
    (word : x.word = s.outputs[o].word) (mask : x.mask = s.outputs[o].mask) :
    State.noticeHolds { s with outputs := s.outputs.set o x } := by
  refine State.noticeHolds_congr holds (State.summaries_congr (fun _ => ⟨rfl, rfl⟩) fun q => ?_) rfl rfl rfl
  by_cases same : q = o
  · subst same
    simp [word, mask]
  · simp [vector_set_other _ _ _ _ same]

/-- Where the notice line holds, an output written as its record shows it changes in its place alone. -/
theorem State.putOutput_of_unshown {o : OutId} {x : Output} {s : State} (holds : s.noticeHolds)
    (shown : x.view = s.outputs[o].view) : s.putOutput o x = { s with outputs := s.outputs.set o x } := by
  have word : x.word = s.outputs[o].word := congrArg OutputView.word shown
  have mask : x.mask = s.outputs[o].mask := congrArg OutputView.mask shown
  rw [State.putOutput, if_pos shown]
  exact State.refresh_of_noticeHolds (State.noticeHolds_setOutput holds word mask)

theorem State.modifyOutput_of_unshown {o : OutId} {g : Output → Output} {s : State} (holds : s.noticeHolds)
    (shown : (g s.outputs[o]).view = s.outputs[o].view) :
    s.modifyOutput o g = { s with outputs := s.outputs.set o (g s.outputs[o]) } :=
  State.putOutput_of_unshown holds shown

theorem State.modifyOutput_of_unshown_changesOnly {o : OutId} {g : Output → Output} {s : State} (holds : s.noticeHolds)
    (shown : (g s.outputs[o]).view = s.outputs[o].view) : s.changesOnly [.output o] (s.modifyOutput o g) := by
  rw [State.modifyOutput_of_unshown holds shown]
  intro p other
  cases p <;> simp_all [State.same, State.ref, vector_set_other]

theorem State.modifyBuilder_of_noticeHolds {s : State} (holds : s.noticeHolds) (o : OutId)
    (g : LineBuilder → LineBuilder) : s.modifyBuilder o g =
      { s with outputs := s.outputs.set o { s.outputs[o] with builder := g s.outputs[o].builder } } :=
  State.putOutput_of_unshown holds rfl

/-- Changes of the memory path leave the notice line as it is. -/
theorem State.noticeHolds_of_changesOnly {ps : List Part} {s t : State} (holds : s.noticeHolds)
    (only : s.changesOnly ps t) (feeds : ∀ f : FeedId, .feed f ∉ ps) (outputs : ∀ o : OutId, .output o ∉ ps)
    (word : .deviceWord ∉ ps) (mask : .deviceMask ∉ ps) : t.noticeHolds := by
  obtain ⟨deviceWord, notice⟩ := only .deviceWord word
  refine State.noticeHolds_congr holds (State.summaries_congr (fun f => ?_) fun o => ?_) deviceWord notice
    (only .deviceMask mask)
  · have same : t.feeds[f] = s.feeds[f] := only (.feed f) (feeds f)
    rw [same]
    exact ⟨rfl, rfl⟩
  · have same : t.outputs[o] = s.outputs[o] := only (.output o) (outputs o)
    rw [same]
    exact ⟨rfl, rfl⟩

/-! ### Lookups while entries are FREE (R121, R122) -/

/-- How many entries of the Line Cache are FREE. -/
def Cache.freeCount (c : Cache) : Nat := allEntries.countP fun e => c.entries[e].state = .free

/-- A predicate that fails anew at one place of a list without repetitions holds at most once less. -/
theorem countP_le_succ {α : Type} {p q : α → Bool} {i : α} (other : ∀ x, x ≠ i → p x = true → q x = true) :
    ∀ l : List α, l.Nodup → l.countP p ≤ l.countP q + 1
  | [], _ => Nat.zero_le _
  | x :: l, nodup => by
    obtain ⟨fresh, nodup⟩ := List.nodup_cons.1 nodup
    by_cases here : x = i
    · have rest : l.countP p ≤ l.countP q :=
        List.countP_mono_left fun y mem => other y fun same => fresh (by rwa [here, ← same])
      simp only [List.countP_cons]
      split <;> omega
    · have rest := countP_le_succ other l nodup
      simp only [List.countP_cons]
      by_cases holds : p x = true
      · simp only [holds, other x here holds, if_true]
        omega
      · rw [if_neg holds]
        omega

theorem Cache.freeCount_put (i : EntryId) (e : CacheEntry) (c : Cache) :
    c.freeCount ≤ ((c.put i e).touch i).freeCount + 1 := by
  refine countP_le_succ (i := i) (fun x other free => ?_) _ (List.nodup_finRange 64)
  have same : ((c.put i e).touch i).entries[x] = c.entries[x] := vector_set_other _ _ _ _ other
  rw [same]
  exact free

theorem Cache.freeCount_hit (i : EntryId) (c : Cache) : (c.hit i).freeCount = c.freeCount := by
  refine List.countP_congr fun x _ => ?_
  by_cases same : x = i
  · subst same
    have kept : (c.hit x).entries[x].state = c.entries[x].state := by
      simp only [Cache.hit, Cache.touch, Cache.put, vector_set_self]
    rw [kept]
  · have kept : (c.hit i).entries[x] = c.entries[x] := vector_set_other _ _ _ _ same
    rw [kept]

/-- With a FREE entry a lookup finds an entry or takes one. -/
theorem Cache.look_of_free {c : Cache} (free : 0 < c.freeCount) (k : CacheKey) :
    (∃ i, c.look k = .hit i) ∨ ∃ i, c.look k = .miss i := by
  obtain ⟨e, mem, isFree⟩ := List.countP_pos_iff.1 free
  unfold Cache.look
  split
  · exact .inl ⟨_, rfl⟩
  · have found : (allEntries.find? fun i => c.entries[i].state = .free).isSome = true :=
      List.find?_isSome.2 ⟨e, mem, isFree⟩
    obtain ⟨i, found⟩ := Option.isSome_iff_exists.1 found
    have victim : c.victim = some i := by rw [Cache.victim, found]; rfl
    rw [victim]
    exact .inr ⟨i, rfl⟩

theorem State.lookup_of_free {o : OutId} {b : Build} {k : CacheKey} {s : State} (free : 0 < s.cache.freeCount) :
    (s.lookup o b k).2.map (·.1) = [k] ∧ s.cache.freeCount ≤ (s.lookup o b k).1.cache.freeCount + 1 := by
  rcases Cache.look_of_free free k with ⟨i, hit⟩ | ⟨i, miss⟩
  · simp only [State.lookup, hit]
    exact ⟨rfl, Nat.le_succ_of_le (Cache.freeCount_hit i s.cache).ge⟩
  · simp only [State.lookup, miss]
    exact ⟨rfl, Cache.freeCount_put ..⟩

/-- With as many FREE entries as keys, every key is held, in order. -/
theorem State.lookupAll_of_free {o : OutId} {b : Build} : ∀ (ks : List CacheKey) (s : State),
    ks.length ≤ s.cache.freeCount → (s.lookupAll o b ks).2.map (·.1) = ks
  | [], _, _ => rfl
  | k :: ks, s, free => by
    obtain ⟨held, left⟩ :=
      State.lookup_of_free (o := o) (b := b) (k := k) (s := s) (Nat.lt_of_lt_of_le (by simp) free)
    have rest := State.lookupAll_of_free (o := o) (b := b) ks (s.lookup o b k).1 (by simp at free; omega)
    simp only [State.lookupAll, List.map_append, held, rest]
    rfl

theorem length_distinct_le (ks : List CacheKey) : (distinct ks).length ≤ ks.length := by
  have grow (acc : List CacheKey) : ∀ ks : List CacheKey,
      (ks.foldl (fun acc k => if acc.contains k then acc else acc ++ [k]) acc).length ≤ acc.length + ks.length := by
    intro ks
    induction ks generalizing acc with
    | nil => simp
    | cons k ks ih =>
      refine (ih _).trans ?_
      dsimp only
      split
      · simp only [List.length_cons]
        omega
      · simp only [List.length_append, List.length_cons, List.length_nil]
        omega
  exact (grow [] ks).trans (by simp)

theorem Build.length_firstKeys_le (d : Build) : d.firstKeys.length ≤ 8 := by
  refine (length_distinct_le _).trans ?_
  rw [List.length_append]
  have four (r : FixedRecord) : (d.taps r).length = 4 := by simp [Build.taps]
  split <;> split <;> simp [four]

/-! ### The start of a build (R77, R86, R113, R115) -/

/-- The build with its tap lines, as the state before its start gives them. -/
def State.started (o : OutId) (c : OutputConfig) (fc : FeedConfig) (x : Context) (ra rb : RecordRef) (y : Nat)
    (s : State) : Build :=
  let b := s.newBuild y x ra rb s.outputs[o].builder.chooseBuffer c fc s.outputs[o].modes.fill
  { b with holds := (s.lookupAll o b b.firstKeys).2 }

theorem LineBuilder.chooseBuffer_first {lb : LineBuilder} (empty : lb.buffers[(0 : Fin 2)].state = .empty) :
    lb.chooseBuffer = 0 := if_pos empty

theorem LineBuilder.chooseBuffer_second {lb : LineBuilder} (used : lb.buffers[(0 : Fin 2)].state ≠ .empty)
    (empty : lb.buffers[(1 : Fin 2)].state = .empty) : lb.chooseBuffer = 1 := by
  rw [LineBuilder.chooseBuffer, if_neg used, if_pos empty]

theorem LineBuilder.chooseBuffer_not_touched {lb : LineBuilder} (used : lb.buffers[(0 : Fin 2)].state ≠ .empty)
    (used' : lb.buffers[(1 : Fin 2)].state ≠ .empty) : lb.lastTouched ≠ some lb.chooseBuffer := by
  rw [LineBuilder.chooseBuffer, if_neg used, if_neg used']
  split
  · next touched => rw [touched]; simp
  · next touched => exact touched

section start
variable {o : OutId} {c : OutputConfig} {fc : FeedConfig} {x : Context} {ra rb : RecordRef} {y : Nat} {s : State}
  (config : s.outputs[o].config = some c) (held : s.outputs[o].ctx.held (c.lineParity y) = some x)
  (feed : s.feeds[c.feed].config = some fc) (a : x.a = some ra) (b : x.b = some rb)
include config held feed a b

theorem State.startBuild_eq : s.startBuild o y =
    (s.lookupAll o (s.newBuild y x ra rb s.outputs[o].builder.chooseBuffer c fc s.outputs[o].modes.fill)
      (s.started o c fc x ra rb y).firstKeys).1.modifyOutput o fun out =>
        { out with
          ctx := out.ctx.changeHeld (c.lineParity y) fun x => { x with uses := x.uses + 1 }
          builder :=
            { out.builder.putBuffer s.outputs[o].builder.chooseBuffer (newBuffer y x.id) with
              build := some (s.started o c fc x ra rb y) } } := by
  simp only [State.startBuild, config, held, feed, a, b]
  rfl

theorem State.startBuild_startsBuild (holds : s.noticeHolds) :
    s.startsBuild o c fc x ra rb y (s.startBuild o y) := by
  rw [State.startBuild_eq config held feed a b]
  generalize keys : (s.started o c fc x ra rb y).firstKeys = ks
  generalize named : s.newBuild y x ra rb s.outputs[o].builder.chooseBuffer c fc s.outputs[o].modes.fill = d
  have only := State.lookupAll_changesOnly o d ks s
  have same : (s.lookupAll o d ks).1.outputs[o] = s.outputs[o] := only (.output o) (by simp)
  have quiet : (s.lookupAll o d ks).1.noticeHolds :=
    State.noticeHolds_of_changesOnly holds only (by simp) (by simp) (by simp) (by simp)
  refine ⟨s.started o c fc x ra rb y, s.outputs[o].builder.chooseBuffer, ?output, rfl, rfl, rfl, rfl, rfl, rfl, rfl,
    rfl, rfl, rfl, rfl, rfl, rfl, rfl, rfl, rfl, fun free => ?keys, LineBuilder.chooseBuffer_first,
    LineBuilder.chooseBuffer_second, LineBuilder.chooseBuffer_not_touched, ?only⟩
  case output =>
    rw [State.modifyOutput_outputs, vector_set_self, same]
    simp only [Contexts.changeHeld, held, Option.map_some]
    rfl
  case keys => exact State.lookupAll_of_free _ s ((Build.length_firstKeys_le _).trans free)
  case only =>
    exact State.changesOnly_trans (State.changesOnly_mono only (by simp))
      (State.changesOnly_mono (State.modifyOutput_of_unshown_changesOnly quiet rfl) (by simp))

end start

end Sys2Proof.Machine
end

section
/-! The head beat of a read queue (R108 to R112) and the prefetch (R118). -/

namespace Sys2Proof.Machine

/-! ### The table of the head beat (R109) -/

theorem LineBuilder.holding_eq_none {y : Nat} {x : Context} {lb : LineBuilder} :
    lb.holding .ready y x.id = none ↔ lb.lacks y x := by
  simp only [LineBuilder.holding, LineBuilder.lacks, List.find?_eq_none, Fin.forall_fin_two]
  simp

/-- The buffer that a line is read from is the first that holds it READY for its context (R112). -/
theorem LineBuilder.holding_eq_some {y : Nat} {x : Context} {lb : LineBuilder} {i : Fin 2}
    (first : ∀ j : Fin 2, j ≤ i → (lb.buffers[j].state = .ready ∧ lb.buffers[j].line = some y ∧
      lb.buffers[j].context = some x.id ↔ j = i)) : lb.holding .ready y x.id = some i := by
  have holds (j : Fin 2) (h : j ≤ i) :
      (decide (lb.buffers[j].state = .ready) && decide (lb.buffers[j].line = some y) &&
        decide (lb.buffers[j].context = some x.id)) = decide (j = i) := by
    rw [Bool.eq_iff_iff]
    simpa [and_assoc] using first j h
  rw [LineBuilder.holding, List.find?_cons, holds 0 (Fin.zero_le i)]
  by_cases zero : 0 = i
  · simp [zero]
  · have one : i = 1 := by omega
    subst one
    rw [List.find?_cons, holds 1 le_rfl]
    simp

/-- The head beat of a RUNNING output inside its picture, by the context of its line (R109). -/
def Output.pictureCase (c : OutputConfig) (q : QueuedRead) (out : Output) : HeadCase :=
  match out.ctx.held (c.lineParity (q.start q.done / c.stride)) with
  | none => .answer (windowBytes c (colourByte out.modes.fill) (q.start q.done) (q.bytes q.done)) none
  | some x =>
    match x.kind with
    | .fill | .empty =>
      .answer (windowBytes c (colourByte out.modes.fill) (q.start q.done) (q.bytes q.done)) none
    | .slate =>
      match out.modes.slatePage with
      | some p => .slate p
      | none => .answer (windowBytes c (colourByte out.modes.fill) (q.start q.done) (q.bytes q.done)) none
    | .convert | .freeze =>
      match out.builder.holding .ready (q.start q.done / c.stride) x.id with
      | some i =>
        .answer (windowBytes c (fun b => out.builder.buffers[i].bytes.getD b 0) (q.start q.done)
          (q.bytes q.done)) (some i)
      | none => if out.builder.build.isSome then .wait else .build (q.start q.done / c.stride)

section head
variable {out : Output} {c : OutputConfig} {q : QueuedRead} (config : out.config = some c)
include config

theorem Output.headCase_of_outside (outside : ¬ inPicture c (q.start q.done)) (pic : Nat → Byte) :
    out.headCase q = .answer (windowBytes c pic (q.start q.done) (q.bytes q.done)) none := by
  have padding : c.lines ≤ q.start q.done / c.stride ∨
      4 * c.width ≤ q.start q.done - q.start q.done / c.stride * c.stride := by
    simp only [inPicture] at outside
    omega
  simp only [Output.headCase, config, windowBytes_outside padding]
  rw [if_pos (by simpa using padding)]

variable (inside : inPicture c (q.start q.done)) (running : out.state = .running)
include inside running

/-- Inside the picture of a RUNNING output the context of the line decides (R109). -/
theorem Output.headCase_of_inside : out.headCase q = out.pictureCase c q := by
  have colour : fillByte out.modes.fill = colourByte out.modes.fill := funext (fillByte_eq_colourByte _)
  simp only [Output.headCase, config, OutputConfig.beat_eq_windowBytes, colour]
  rw [if_neg (by simpa using inside), if_neg (not_not.2 running)]
  rfl

/-- A beat that is answered at once, with the colour or the buffer that it takes (R109 to R112). -/
theorem Output.headCase_of_atOnce {src : Option (Fin 2)} (once : out.atOnce c (q.start q.done) src) :
    out.headCase q = .answer (windowBytes c (out.picture src) (q.start q.done) (q.bytes q.done)) src := by
  rw [Output.headCase_of_inside config inside running, Output.pictureCase]
  rcases once inside with ⟨rfl, plain⟩ | ⟨i, x, rfl, held, kind, first⟩
  · cases held : out.ctx.held (c.lineParity (q.start q.done / c.stride)) with
    | none => rfl
    | some x =>
      rcases plain x held with kind | kind | ⟨kind, page⟩
      · simp only [kind]
        rfl
      · simp only [kind]
        rfl
      · simp only [kind, page]
        rfl
  · simp only [held, LineBuilder.holding_eq_some first]
    rcases kind with kind | kind
    · simp only [kind]
      rfl
    · simp only [kind]
      rfl

variable {x : Context} (held : out.ctx.held (c.lineParity (q.start q.done / c.stride)) = some x)
include held

theorem Output.headCase_of_missing (kind : x.kind = .convert ∨ x.kind = .freeze)
    (lacks : out.builder.lacks (q.start q.done / c.stride) x) :
    out.headCase q = if out.builder.build.isSome then .wait else .build (q.start q.done / c.stride) := by
  rw [Output.headCase_of_inside config inside running, Output.pictureCase]
  simp only [held, LineBuilder.holding_eq_none.2 lacks]
  rcases kind with kind | kind <;> simp only [kind]

theorem Output.headCase_of_slate {page : Page} (kind : x.kind = .slate) (slate : out.modes.slatePage = some page) :
    out.headCase q = .slate page := by
  rw [Output.headCase_of_inside config inside running, Output.pictureCase]
  simp only [held, kind, slate]

end head

theorem Output.headCase_of_answered {out : Output} {c : OutputConfig} {q : QueuedRead} {src : Option (Fin 2)}
    (config : out.config = some c) (once : (out.state ≠ .running ∧ src = none) ∨
      (out.state = .running ∧ out.atOnce c (q.start q.done) src)) :
    out.headCase q = .answer (windowBytes c (out.picture src) (q.start q.done) (q.bytes q.done))
      (if inPicture c (q.start q.done) then src else none) := by
  rcases once with ⟨stopped, rfl⟩ | ⟨running, once⟩
  · rw [Output.headCase_of_stopped config stopped, ite_self]
    rfl
  · by_cases inside : inPicture c (q.start q.done)
    · rw [Output.headCase_of_atOnce config inside running once, if_pos inside]
    · rw [Output.headCase_of_outside config inside, if_neg inside]

/-! ### One head beat (R108) -/

theorem State.serve_of_nil {o : OutId} {s : State} (n : Nat) (queue : s.outputs[o].builder.queue = []) :
    State.serve n o s = s := by
  cases n with
  | zero => rfl
  | succ n => simp only [State.serve, queue]

section serve
variable {o : OutId} {s : State} {q : QueuedRead} {rest : List QueuedRead} {n : Nat}
  (queue : s.outputs[o].builder.queue = q :: rest) (idle : s.outputs[o].builder.run = none)
include queue idle

theorem State.serve_of_cons : State.serve (n + 1) o s =
    match s.outputs[o].headCase q with
    | .answer bytes touched => State.serve n o (s.answerHead o bytes touched)
    | .wait => s
    | .build y => s.startBuild o y
    | .slate page => s.startRun o page := by
  simp only [State.serve, queue, idle]
  rfl

omit idle in
theorem State.answerHead_queue (bytes : List Byte) (touched : Option (Fin 2)) :
    (s.answerHead o bytes touched).outputs[o].builder.queue = q.behind rest ∧
      (s.answerHead o bytes touched).outputs[o].builder.run = s.outputs[o].builder.run := by
  simp only [State.answerHead, queue, State.modifyBuilder_outputs, vector_set_self]
  exact ⟨by simp [QueuedRead.behind], rfl⟩

end serve

/-- A bound above the beats left does not matter. -/
theorem State.serve_eq_serve {o : OutId} : ∀ (n m : Nat) (s : State), beatsLeft s.outputs[o].builder.queue < n →
    beatsLeft s.outputs[o].builder.queue < m → State.serve n o s = State.serve m o s
  | 0, _, _, h, _ => absurd h (Nat.not_lt_zero _)
  | _, 0, _, _, h => absurd h (Nat.not_lt_zero _)
  | n + 1, m + 1, s, left, left' => by
    cases queue : s.outputs[o].builder.queue with
    | nil => rw [State.serve_of_nil _ queue, State.serve_of_nil _ queue]
    | cons q rest =>
      cases flight : s.outputs[o].builder.run with
      | some run => simp only [State.serve, queue, flight, Option.isSome_some, if_true]
      | none =>
        rw [State.serve_of_cons queue flight, State.serve_of_cons queue flight]
        split
        · next bytes touched _ =>
          have fewer := beatsLeft_behind q rest
          rw [queue] at left left'
          have after := (State.answerHead_queue (s := s) queue bytes touched).1
          exact State.serve_eq_serve n m _ (by rw [after]; omega) (by rw [after]; omega)
        all_goals rfl

theorem State.takeHead_of_idle {o : OutId} {s : State}
    (idle : s.outputs[o].builder.queue = [] ∨ s.outputs[o].builder.run ≠ none) : s.takeHead o = s := by
  rcases idle with queue | flight
  · exact State.serve_of_nil _ queue
  · exact State.takeHead_of_run (Option.isSome_iff_ne_none.2 flight)

section take
variable {o : OutId} {s : State} {q : QueuedRead} {rest : List QueuedRead}
  (queue : s.outputs[o].builder.queue = q :: rest) (idle : s.outputs[o].builder.run = none)
include queue idle

theorem State.takeHead_of_answer {bytes : List Byte} {touched : Option (Fin 2)}
    (head : s.outputs[o].headCase q = .answer bytes touched) :
    s.takeHead o = (s.answerHead o bytes touched).takeHead o := by
  have fewer := beatsLeft_behind q rest
  have after := (State.answerHead_queue (s := s) queue bytes touched).1
  rw [State.takeHead, State.serve_of_cons queue idle, head, State.takeHead]
  exact State.serve_eq_serve _ _ _ (by rw [after, queue]; exact fewer) (Nat.lt_succ_self _)

theorem State.takeHead_of_wait (head : s.outputs[o].headCase q = .wait) : s.takeHead o = s := by
  rw [State.takeHead, State.serve_of_cons queue idle, head]

theorem State.takeHead_of_build {y : Nat} (head : s.outputs[o].headCase q = .build y) :
    s.takeHead o = s.startBuild o y := by
  rw [State.takeHead, State.serve_of_cons queue idle, head]

theorem State.takeHead_of_slate {page : Page} (head : s.outputs[o].headCase q = .slate page) :
    s.takeHead o = s.startRun o page := by
  rw [State.takeHead, State.serve_of_cons queue idle, head]

omit idle in
/-- The head beat's answer joins its read, and its burst leaves the queue with the last beat (R108). -/
theorem State.answerHead_eq (holds : s.noticeHolds) (more : q.done < q.len) (bytes : List Byte)
    (touched : Option (Fin 2)) : s.answerHead o bytes touched =
      { s with
        reads := s.reads.map fun z =>
          if z.serial = q.serial then
            { z with ready := decide (q.done + 1 = q.len), beats := z.beats ++ [⟨.okay, bytes⟩] }
          else z
        outputs := s.outputs.set o
          { s.outputs[o] with
            builder :=
              { s.outputs[o].builder with
                queue := if q.done + 1 = q.len then rest else { q with done := q.done + 1 } :: rest
                lastTouched := touched.or s.outputs[o].builder.lastTouched } } } := by
  have last : (q.len ≤ q.done + 1) = (q.done + 1 = q.len) := by
    rw [eq_iff_iff]
    omega
  have answered : State.noticeHolds { s with
      reads := s.reads.map fun z =>
        if z.serial = q.serial then
          { z with ready := decide (q.done + 1 = q.len), beats := z.beats ++ [⟨.okay, bytes⟩] }
        else z } := State.noticeHolds_congr holds rfl rfl rfl rfl
  simp only [State.answerHead, queue, State.answerBeat, last, decide_eq_true_eq]
  exact State.modifyBuilder_of_noticeHolds answered o _

end take

/-! ### The prefetch (R118) -/

section prefetch
variable {o : OutId} {c : OutputConfig} {y : Nat} {s : State} (config : s.outputs[o].config = some c)
include config

theorem Output.prefetches_iff : s.outputs[o].prefetches y = true ↔
    y < c.lines ∧ s.outputs[o].state = .running ∧ s.outputs[o].builder.queue = [] ∧
      s.outputs[o].builder.build = none ∧ ∃ x, s.outputs[o].ctx.held (c.lineParity y) = some x ∧
        (x.kind = .convert ∨ x.kind = .freeze) ∧ s.outputs[o].builder.lacks y x := by
  simp only [Output.prefetches, config, ← LineBuilder.holding_eq_none]
  cases held : s.outputs[o].ctx.held (c.lineParity y) with
  | none => simp
  | some x => simp [and_assoc]

omit config in
theorem State.prefetch_of_prefetches (starts : s.outputs[o].prefetches y = true) :
    s.prefetch o y = s.startBuild o y := if_pos starts

omit config in
theorem State.prefetch_of_not (stays : ¬ s.outputs[o].prefetches y = true) : s.prefetch o y = s := if_neg stays

end prefetch

end Sys2Proof.Machine
end

section
/-! Slate runs: the beats of a run and the reads of its pages (R111, R153). -/

namespace Sys2Proof.Machine

/-! ### A run of bytes cut at page boundaries -/

section split
variable {step : Nat}

theorem splitRange_of_le {n lo hi : Nat} (empty : hi ≤ lo) : splitRange step n lo hi = [] := by
  cases n with
  | zero => rfl
  | succ n => simp [splitRange, empty]

/-- A run is its first piece, up to a page boundary or its end, and the pieces of the rest. -/
theorem splitRange_succ {n lo hi : Nat} (more : lo < hi) : splitRange step (n + 1) lo hi =
    (lo, min hi ((lo / step + 1) * step) - lo) :: splitRange step n (min hi ((lo / step + 1) * step)) hi :=
  if_neg (Nat.not_le.2 more)

variable (positive : 0 < step)
include positive

theorem lt_boundary (lo : Nat) : lo < (lo / step + 1) * step := (Nat.div_lt_iff_lt_mul positive).1 (Nat.lt_succ_self _)

theorem le_of_mem_splitRange : ∀ {n lo hi : Nat} {p : Nat × Nat}, p ∈ splitRange step n lo hi → lo ≤ p.1
  | 0, _, _, _, mem => by cases mem
  | n + 1, lo, hi, p, mem => by
    by_cases more : lo < hi
    · rw [splitRange_succ more] at mem
      have ahead := lt_boundary positive lo
      rcases List.mem_cons.1 mem with rfl | mem
      · exact Nat.le_refl _
      · have := le_of_mem_splitRange mem
        omega
    · rw [splitRange_of_le (Nat.not_lt.1 more)] at mem
      cases mem

/-- The pieces join to the run, when there are enough of them. -/
theorem flatMap_splitRange : ∀ {n lo hi : Nat}, hi ≤ (lo / step + n) * step →
    ((splitRange step n lo hi).flatMap fun p => List.range' p.1 p.2) = List.range' lo (hi - lo)
  | 0, lo, hi, enough => by
    have empty : hi - lo = 0 := Nat.sub_eq_zero_of_le (enough.trans (Nat.div_mul_le_self lo step))
    simp [splitRange, empty]
  | n + 1, lo, hi, enough => by
    by_cases more : lo < hi
    · have ahead := lt_boundary positive lo
      rw [splitRange_succ more, List.flatMap_cons]
      generalize stop : min hi ((lo / step + 1) * step) = cut
      have rest : ((splitRange step n cut hi).flatMap fun p => List.range' p.1 p.2) = List.range' cut (hi - cut) := by
        by_cases last : hi ≤ (lo / step + 1) * step
        · have whole : hi ≤ cut := by omega
          rw [splitRange_of_le whole, Nat.sub_eq_zero_of_le whole]
          rfl
        · have boundary : cut = (lo / step + 1) * step := by omega
          refine flatMap_splitRange ?_
          rw [boundary, Nat.mul_div_cancel _ positive, Nat.add_assoc, Nat.add_comm 1 n]
          exact enough
      have joined : hi - lo = (cut - lo) + (hi - cut) := by omega
      have next : cut = lo + 1 * (cut - lo) := by omega
      rw [rest, joined, ← List.range'_append, ← next]
    · rw [splitRange_of_le (Nat.not_lt.1 more), Nat.sub_eq_zero_of_le (Nat.not_lt.1 more)]
      rfl

/-- Each page has one piece. -/
theorem nodup_splitRange_pages : ∀ {n lo hi : Nat}, ((splitRange step n lo hi).map fun p => p.1 / step).Nodup
  | 0, _, _ => List.nodup_nil
  | n + 1, lo, hi => by
    by_cases more : lo < hi
    · rw [splitRange_succ more, List.map_cons, List.nodup_cons]
      refine ⟨fun mem => ?_, nodup_splitRange_pages⟩
      obtain ⟨p, mem, page⟩ := List.mem_map.1 mem
      by_cases last : hi ≤ (lo / step + 1) * step
      · rw [Nat.min_eq_left last, splitRange_of_le (Nat.le_refl _)] at mem
        cases mem
      · rw [Nat.min_eq_right (Nat.le_of_not_le last)] at mem
        have beyond : lo / step + 1 ≤ p.1 / step :=
          (Nat.le_div_iff_mul_le positive).2 (le_of_mem_splitRange positive mem)
        dsimp only at page
        omega
    · rw [splitRange_of_le (Nat.not_lt.1 more)]
      exact List.nodup_nil

/-- A piece is not empty and lies in one page. -/
theorem splitRange_within : ∀ {n lo hi : Nat} {p : Nat × Nat}, p ∈ splitRange step n lo hi →
    0 < p.2 ∧ (p.1 + p.2 - 1) / step = p.1 / step
  | 0, _, _, _, mem => by cases mem
  | n + 1, lo, hi, p, mem => by
    by_cases more : lo < hi
    · rw [splitRange_succ more] at mem
      rcases List.mem_cons.1 mem with rfl | mem
      · have ahead := lt_boundary positive lo
        refine ⟨by dsimp only; omega, Nat.le_antisymm ?_ (Nat.div_le_div_right (by dsimp only; omega))⟩
        refine Nat.lt_succ_iff.1 ((Nat.div_lt_iff_lt_mul positive).2 ?_)
        show lo + (min hi ((lo / step + 1) * step) - lo) - 1 < (lo / step + 1) * step
        omega
      · exact splitRange_within mem
    · rw [splitRange_of_le (Nat.not_lt.1 more)] at mem
      cases mem

theorem flatMap_pieces (lo hi : Nat) :
    ((pieces step lo hi).flatMap fun p => List.range' p.1 p.2) = List.range' lo (hi - lo) := by
  refine flatMap_splitRange positive ?_
  have first := lt_boundary positive lo
  have second := lt_boundary positive (hi - lo)
  calc hi ≤ (lo / step + 1) * step + ((hi - lo) / step + 1) * step := by omega
    _ = (lo / step + ((hi - lo) / step + 2)) * step := by ring

end split

/-! ### The beats of a run (R111) -/

theorem takeWhile_stops {α : Type} (p : α → Bool) : ∀ (l : List α) (x : α),
    l[(l.takeWhile p).length]? = some x → p x = false
  | [], _, h => by simp at h
  | y :: l, x, h => by
    cases holds : p y with
    | true =>
      simp only [List.takeWhile_cons, holds, if_true, List.length_cons, List.getElem?_cons_succ] at h
      exact takeWhile_stops p l x h
    | false =>
      simp only [List.takeWhile_cons, holds] at h
      simp at h
      rwa [← h]

theorem takeWhile_holds {α : Type} (p : α → Bool) : ∀ (l : List α) (i : Nat) (x : α),
    i < (l.takeWhile p).length → l[i]? = some x → p x = true
  | [], _, _, h, _ => by simp at h
  | y :: l, i, x, h, at_ => by
    cases holds : p y with
    | true =>
      simp only [List.takeWhile_cons, holds, if_true, List.length_cons] at h
      cases i with
      | zero =>
        simp at at_
        rwa [← at_]
      | succ i => exact takeWhile_holds p l i x (Nat.lt_of_succ_lt_succ h) (by simpa using at_)
    | false => simp [holds] at h

section beats
variable {q : QueuedRead} {stride : Nat}

theorem QueuedRead.runBeats_le : q.runBeats stride ≤ q.len - q.done :=
  (List.takeWhile_sublist _).length_le.trans (by simp)

theorem QueuedRead.runBeats_same {i : Nat} (inside : i < q.runBeats stride) :
    q.start (q.done + i) / stride = q.start q.done / stride := by
  have bound := Nat.lt_of_lt_of_le inside QueuedRead.runBeats_le
  simpa using takeWhile_holds _ _ i i inside (by simp [bound])

theorem QueuedRead.runBeats_stops (more : q.runBeats stride < q.len - q.done) :
    q.start (q.done + q.runBeats stride) / stride ≠ q.start q.done / stride := by
  have next : (List.range (q.len - q.done))[q.runBeats stride]? = some (q.runBeats stride) := by simp [more]
  simpa using takeWhile_stops _ _ _ next

theorem QueuedRead.runBeats_pos (more : q.done < q.len) : 1 ≤ q.runBeats stride := by
  by_contra none_
  have zero : q.runBeats stride = 0 := by omega
  have stops := QueuedRead.runBeats_stops (q := q) (stride := stride) (by omega)
  rw [zero] at stops
  exact stops rfl

end beats

/-! ### The reads of a run (R111, R153) -/

/-- The read of a run's page as it is offered. -/
def SlateRead.offer (o : OutId) (page : Page) (r : SlateRead × Nat) : WaitingSlate :=
  ⟨o, r.2, BitVec.ofNat 40 (page.toNat * 4096 + r.1.offset), r.1.len⟩

/-- What an offered slate read leaves: it joins class 1, or waits while a slate write of its page is listed. -/
theorem State.offerSlate_spec (w : WaitingSlate) (s : State) :
    (s.offerSlate w).class1[w.output] = s.class1[w.output] ++
        (if s.slateWritten (w.addr.toNat / 4096) then [] else [.slate w.index w.addr w.len]) ∧
      (s.offerSlate w).waitingSlate =
        s.waitingSlate ++ (if s.slateWritten (w.addr.toNat / 4096) then [w] else []) ∧
      s.changesOnly [.class1 w.output, .waitingSlate] (s.offerSlate w) := by
  unfold State.offerSlate
  split
  · refine ⟨by simp, rfl, fun p other => ?_⟩
    cases p <;> simp_all [State.same, State.ref]
  · refine ⟨by simp [State.request1], by simp [State.request1],
      State.changesOnly_mono (State.request1_changesOnly _ _ s) (by simp)⟩

theorem State.slateWritten_of_changesOnly {ps : List Part} {s t : State} (only : s.changesOnly ps t)
    (class2 : .class2 ∉ ps) (granted : .granted ∉ ps) (page : Nat) : t.slateWritten page = s.slateWritten page := by
  have same : t.class2 = s.class2 := only .class2 class2
  have same' : t.granted = s.granted := only .granted granted
  simp only [State.slateWritten, same, same']

theorem State.offerSlates (o : OutId) (page : Page) : ∀ (l : List (SlateRead × Nat)) (s t : State),
    t = l.foldl (fun s r => s.offerSlate (SlateRead.offer o page r)) s →
    t.class1[o] = s.class1[o] ++ l.filterMap (fun r =>
        if s.slateWritten ((SlateRead.offer o page r).addr.toNat / 4096) then none
        else some (.slate r.2 (SlateRead.offer o page r).addr r.1.len)) ∧
      t.waitingSlate = s.waitingSlate ++ l.filterMap (fun r =>
        if s.slateWritten ((SlateRead.offer o page r).addr.toNat / 4096) then some (SlateRead.offer o page r)
        else none) ∧
      s.changesOnly [.class1 o, .waitingSlate] t
  | [], s, t, e => by
    subst e
    simpa using State.changesOnly_refl _ _
  | r :: l, s, t, e => by
    obtain ⟨joined, waits, only⟩ := s.offerSlate_spec (SlateRead.offer o page r)
    obtain ⟨class1, waiting, rest⟩ := State.offerSlates o page l _ t e
    have written := State.slateWritten_of_changesOnly only (by simp) (by simp)
    simp only [written] at class1 waiting
    refine ⟨?_, ?_, State.changesOnly_trans only rest⟩
    · rw [class1]
      refine (congrArg (· ++ _) joined).trans ?_
      rw [List.append_assoc, List.filterMap_cons]
      split <;> rfl
    · rw [waiting, waits, List.append_assoc, List.filterMap_cons]
      split <;> rfl

/-- A run of the head burst is fixed and its reads are offered (R111). -/
theorem State.startRun_startsRun {o : OutId} {c : OutputConfig} {page : Page} {q : QueuedRead}
    {rest : List QueuedRead} {s : State} (holds : s.noticeHolds) (config : s.outputs[o].config = some c)
    (queue : s.outputs[o].builder.queue = q :: rest) (more : q.done < q.len) :
    s.startsRun o c page q (s.startRun o page) := by
  have started : s.startRun o page = (c.slateRun q).reads.zipIdx.foldl
      (fun s r => s.offerSlate (SlateRead.offer o page r))
      (s.modifyBuilder o fun lb => { lb with run := some (c.slateRun q) }) := by
    simp only [State.startRun, config, queue]
    rfl
  have fixed := State.modifyOutput_of_unshown_changesOnly (o := o)
    (g := fun x => { x with builder := { x.builder with run := some (c.slateRun q) } }) holds rfl
  obtain ⟨class1, waiting, only⟩ := State.offerSlates o page _ _ _ started
  have written := State.slateWritten_of_changesOnly fixed (by simp) (by simp)
  have before : (s.modifyBuilder o fun lb => { lb with run := some (c.slateRun q) }).class1[o] = s.class1[o] :=
    fixed (.class1 o) (by simp)
  have before' : (s.modifyBuilder o fun lb => { lb with run := some (c.slateRun q) }).waitingSlate = s.waitingSlate :=
    fixed .waitingSlate (by simp)
  have output : (s.startRun o page).outputs[o] =
      (s.modifyBuilder o fun lb => { lb with run := some (c.slateRun q) }).outputs[o] := only (.output o) (by simp)
  have first : 1 ≤ q.runBeats c.stride := QueuedRead.runBeats_pos more
  have last : q.done + (q.runBeats c.stride - 1) = q.done + q.runBeats c.stride - 1 := by omega
  refine ⟨c.slateRun q, fun i => q.start (q.done + i), q.start q.done / c.stride, _, fun _ => rfl, rfl, ?output,
    first, QueuedRead.runBeats_le, fun i => QueuedRead.runBeats_same, QueuedRead.runBeats_stops, rfl, rfl, rfl, ?bytes,
    ?pages, ?within, ?class1, ?waiting, ?only⟩
  case output =>
    rw [output, State.modifyBuilder_outputs, vector_set_self]
  case bytes =>
    simp only [OutputConfig.slateRun, List.flatMap_map]
    rw [last]
    exact flatMap_pieces (by decide) _ _
  case pages =>
    simp only [OutputConfig.slateRun, List.map_map]
    exact nodup_splitRange_pages (by decide)
  case within =>
    intro r mem
    obtain ⟨p, piece, rfl⟩ := List.mem_map.1 mem
    obtain ⟨positive, page⟩ := splitRange_within (step := 4096) (by decide) piece
    exact ⟨positive, page, rfl⟩
  case class1 =>
    rw [class1, before]
    simp only [State.modifyBuilder, written]
    rfl
  case waiting =>
    rw [waiting, before']
    simp only [State.modifyBuilder, written]
    rfl
  case only =>
    exact State.changesOnly_trans (State.changesOnly_mono fixed (by simp)) (State.changesOnly_mono only (by simp))

end Sys2Proof.Machine
end

section
/-! What the head beat does when it is taken, and when a prefetch starts its build (R108 to R112, R115, R118). -/

namespace Sys2Proof.Machine

section take
variable {o : OutId} {c : OutputConfig} {q : QueuedRead} {rest : List QueuedRead} {s : State}
  (holds : s.noticeHolds) (config : s.outputs[o].config = some c)
  (queue : s.outputs[o].builder.queue = q :: rest) (idle : s.outputs[o].builder.run = none)
include holds config queue idle

/-- A head beat that is answered at once leaves the queue, and the next beat is taken (R109). -/
theorem State.takeHead_of_answered (more : q.done < q.len) {src : Option (Fin 2)}
    (once : (s.outputs[o].state ≠ .running ∧ src = none) ∨
      (s.outputs[o].state = .running ∧ s.outputs[o].atOnce c (q.start q.done) src)) :
    s.takeHead o = State.takeHead o
      { s with
        reads := s.reads.map fun z =>
          if z.serial = q.serial then
            { z with
              ready := decide (q.done + 1 = q.len)
              beats := z.beats ++ [windowBeat c (s.outputs[o].picture src) q.offset q.size.val q.done] }
          else z
        outputs := s.outputs.set o
          { s.outputs[o] with
            builder :=
              { s.outputs[o].builder with
                queue := if q.done + 1 = q.len then rest else { q with done := q.done + 1 } :: rest
                lastTouched := (if inPicture c (q.start q.done) then src else none).or
                  s.outputs[o].builder.lastTouched } } } := by
  rw [State.takeHead_of_answer queue idle (Output.headCase_of_answered config once),
    State.answerHead_eq queue holds more]
  rfl

variable (running : s.outputs[o].state = .running) (inside : inPicture c (q.start q.done))
include running inside

/-- A missing line without a build in progress starts its build (R112, R115). -/
theorem State.takeHead_startsBuild {fc : FeedConfig} {x : Context} {ra rb : RecordRef}
    (held : s.outputs[o].ctx.held (c.lineParity (q.start q.done / c.stride)) = some x)
    (kind : x.kind = .convert ∨ x.kind = .freeze)
    (lacks : s.outputs[o].builder.lacks (q.start q.done / c.stride) x)
    (none_ : s.outputs[o].builder.build = none) (feed : s.feeds[c.feed].config = some fc) (a : x.a = some ra)
    (b : x.b = some rb) : s.startsBuild o c fc x ra rb (q.start q.done / c.stride) (s.takeHead o) := by
  have head := Output.headCase_of_missing config inside running held kind lacks
  rw [none_, Option.isSome_none, if_neg Bool.false_ne_true] at head
  rw [State.takeHead_of_build queue idle head]
  exact State.startBuild_startsBuild config held feed a b holds

omit holds in
/-- A missing line waits for a build in progress (R112). -/
theorem State.takeHead_waits {x : Context}
    (held : s.outputs[o].ctx.held (c.lineParity (q.start q.done / c.stride)) = some x)
    (kind : x.kind = .convert ∨ x.kind = .freeze)
    (lacks : s.outputs[o].builder.lacks (q.start q.done / c.stride) x)
    (building : s.outputs[o].builder.build ≠ none) : s.takeHead o = s := by
  have head := Output.headCase_of_missing config inside running held kind lacks
  rw [if_pos (Option.isSome_iff_ne_none.2 building)] at head
  exact State.takeHead_of_wait queue idle head

end take

/-- Settles O28: the table of the head beat, case by case, and the conditions of a prefetch. -/
theorem theHeadBeatAndThePrefetch : Obligations.TheHeadBeatAndThePrefetch := by
  refine ⟨fun o s idle => State.takeHead_of_idle idle, ?head, ?prefetch⟩
  case head =>
    rintro o c q rest x y s holds config queue idle more rfl rfl
    refine ⟨fun src once => State.takeHead_of_answered holds config queue idle more once,
      fun k running inside held => ⟨fun kind lacks building => ?_, fun fc ra rb kind lacks none_ feed a b => ?_,
        fun page kind slate => ?_⟩⟩
    · exact State.takeHead_waits config queue idle running inside held kind lacks building
    · exact State.takeHead_startsBuild holds config queue idle running inside held kind lacks none_ feed a b
    · rw [State.takeHead_of_slate queue idle (Output.headCase_of_slate config inside running held kind slate)]
      exact State.startRun_startsRun holds config queue more
  case prefetch =>
    intro o c y s holds config
    refine ⟨fun fc k ra rb below running queue none_ held kind lacks feed a b => ?_, fun stays => ?_⟩
    · rw [State.prefetch_of_prefetches ((Output.prefetches_iff config).2
        ⟨below, running, queue, none_, k, held, kind, lacks⟩)]
      exact State.startBuild_startsBuild config held feed a b holds
    · refine State.prefetch_of_not fun starts => ?_
      obtain ⟨below, running, queue, none_, k, held, kind, lacks⟩ := (Output.prefetches_iff config).1 starts
      rcases stays with past | stopped | waits | building | absent | ⟨z, other, wrong⟩
      · omega
      · exact stopped running
      · exact waits queue
      · exact building none_
      · rw [held] at absent
        cases absent
      · obtain rfl : k = z := Option.some.inj (held.symm.trans other)
        rcases wrong with ⟨convert, freeze⟩ | ready
        · exact kind.elim convert freeze
        · exact ready lacks

end Sys2Proof.Machine
end

section
/-! A read of an output's window that meets room: how the memory path takes it, and the build that it starts. -/

namespace Sys2Proof.Machine

/-- As in `State.dispatch_elim`, `State.dispatch` is unfolded as a function, before it meets its arguments. -/
theorem State.dispatch_of_outputRead {b : Burst} {o : OutId} {s : State} (route : s.route b = .outputRead o) :
    s.dispatch b = s.outputRead o b := by
  generalize unfolded : State.dispatch = d
  delta State.dispatch at unfolded
  subst unfolded
  simp only [route]

/-- A read of an output's window that the bus may take goes to the output at once (R108, R155, R161). -/
theorem exec_outputRead_of_open {b : Burst} {o : OutId} {s : State} (room : s.open_ b) (read : b.write = false)
    (incr : b.kind = .incr) (window : s.classOf b.addr = some (.window o)) :
    exec (.outputRead b) s = .next (s.outputRead o b) := by
  obtain ⟨run, room⟩ := room
  rw [if_neg (by simp [read])] at room
  obtain ⟨free, reads, queue⟩ := room
  have route : s.route b = .outputRead o := by
    rw [State.route_eq, window]
    simp [incr, read]
  have held : s.heldFor b = none := by rw [State.heldFor, read]; exact free
  have roomFor : s.roomFor b = true := by
    unfold State.roomFor
    rw [if_neg (by simp [read]), State.queueRoom_of_window window]
    exact Bool.and_eq_true_iff.2 ⟨decide_eq_true reads, decide_eq_true (queue o window)⟩
  have admits : s.admits b = true := by simp [State.admits, held, roomFor]
  have kept : s.putHeld b none = s := by
    rw [State.putHeld, if_neg (by simp [read]), ← free]
  have presented : s.presentBurst b = s.outputRead o b := by
    rw [State.presentBurst, if_pos admits, kept, State.dispatch_of_outputRead route]
  have answered : s.unlessReset (fun s => .next (s.presentBurst b)) = .next (s.presentBurst b) :=
    State.unlessReset_of_running run _
  rw [presented] at answered
  exact answered

/-- A read of an output's window as its queue keeps it. -/
def QueuedRead.ofBurst (c : OutputConfig) (serial : Nat) (b : Burst) : QueuedRead :=
  ⟨serial, b.addr.toNat - c.windowPage.toNat * 4096, b.size, b.len, 0⟩

/-- The read is outstanding and the only one in the queue of its output. -/
def State.awaiting (o : OutId) (c : OutputConfig) (b : Burst) (s : State) : State :=
  { s with
    nextSerial := s.nextSerial + 1
    reads := s.reads ++ [⟨s.nextSerial, b.id, [], false⟩]
    outputs := s.outputs.set o
      { s.outputs[o] with
        builder := { s.outputs[o].builder with queue := [QueuedRead.ofBurst c s.nextSerial b] } } }

theorem State.awaiting_output (o : OutId) (c : OutputConfig) (b : Burst) (s : State) :
    (s.awaiting o c b).outputs[o] =
      { s.outputs[o] with
        builder := { s.outputs[o].builder with queue := [QueuedRead.ofBurst c s.nextSerial b] } } :=
  vector_set_self ..

theorem State.awaiting_noticeHolds {s : State} (holds : s.noticeHolds) (o : OutId) (c : OutputConfig) (b : Burst) :
    (s.awaiting o c b).noticeHolds :=
  State.noticeHolds_congr (State.noticeHolds_setOutput (o := o) (x := (s.awaiting o c b).outputs[o]) holds
    (by rw [State.awaiting_output]) (by rw [State.awaiting_output])) (by rw [State.awaiting_output]; rfl) rfl rfl rfl

/-- A read into an empty queue joins it, its head beat is taken, and answered beats go up (R108, R109). -/
theorem State.outputRead_of_empty {b : Burst} {o : OutId} {c : OutputConfig} {s : State} (holds : s.noticeHolds)
    (config : s.outputs[o].config = some c) (queue : s.outputs[o].builder.queue = []) :
    s.outputRead o b = ((s.awaiting o c b).takeHead o).flush := by
  have opened : (s.openRead b [] false).noticeHolds := State.noticeHolds_congr holds rfl rfl rfl rfl
  have none_ : (s.openRead b [] false).outputs[o].builder.queue = [] := queue
  have taken : s.outputRead o b = (((s.openRead b [] false).modifyBuilder o fun lb =>
      { lb with queue := lb.queue ++ [QueuedRead.ofBurst c s.nextSerial b] }).takeHead o).flush := by
    simp only [State.outputRead, config, queue, List.isEmpty_nil, if_true]
    rfl
  rw [taken, State.modifyBuilder_of_noticeHolds opened, none_]
  rfl

/-- Settles O26: the read joins the empty queue, and its head beat, in a line that no buffer holds, starts the
build. -/
theorem readOfAMissingLineStartsABuild : Obligations.ReadOfAMissingLineStartsABuild := by
  rintro b o c fc x ra rb w y s room holds read incr - window config feed running queue idle none_ rfl rfl inside
    held kind a b' lacks
  rw [exec_outputRead_of_open room read incr window, State.outputRead_of_empty holds config queue]
  have output := s.awaiting_output o c b
  refine ⟨(s.awaiting o c b).takeHead o, rfl, State.takeHead_startsBuild (q := QueuedRead.ofBurst c s.nextSerial b)
    (rest := []) (State.awaiting_noticeHolds holds o c b) ?config ?queue ?idle ?running inside ?held kind ?lacks ?none
    feed a b'⟩
  all_goals rw [output]
  case config => exact config
  case idle => exact idle
  case running => exact running
  case held => exact held
  case lacks => exact lacks
  case none => exact none_

end Sys2Proof.Machine
end

section
/-! The completion of a build (R116): its buffer, its context, its entries, and what goes on from there. -/

namespace Sys2Proof.Machine

/-! ### The release of a retired context (R77) -/

/-- The contexts after the release of a retired one that no build uses. -/
def Contexts.released (k : Contexts) : Contexts :=
  match k.retired with
  | some x => if x.uses = 0 then { k with retired := none } else k
  | none => k

theorem Contexts.released_of_none {k : Contexts} (none_ : k.retired = none) : k.released = k := by
  simp only [Contexts.released, none_]

theorem Contexts.released_of_used {k : Contexts} {x : Context} (retired : k.retired = some x) (used : x.uses ≠ 0) :
    k.released = k := by
  simp only [Contexts.released, retired, if_neg used]

theorem Contexts.released_of_unused {k : Contexts} {x : Context} (retired : k.retired = some x) (unused : x.uses = 0) :
    k.released = { k with retired := none } := by
  simp only [Contexts.released, retired, if_pos unused]

theorem State.releaseRetired_of_unused {o : OutId} {s : State} {x : Context}
    (retired : s.outputs[o].ctx.retired = some x) (unused : x.uses = 0) :
    s.releaseRetired o = (s.unpin x).modifyContexts o fun c => { c with retired := none } := by
  unfold State.releaseRetired
  rw [retired]
  exact if_pos unused

theorem State.releaseRetired_of_still {o : OutId} {s : State}
    (still : ∀ x, s.outputs[o].ctx.retired = some x → x.uses ≠ 0) : s.releaseRetired o = s := by
  unfold State.releaseRetired
  cases retired : s.outputs[o].ctx.retired with
  | none => rfl
  | some x => exact if_neg (still x retired)

theorem State.releaseRetired_output (o : OutId) (s : State) :
    (s.releaseRetired o).outputs[o] = { s.outputs[o] with ctx := s.outputs[o].ctx.released } := by
  cases retired : s.outputs[o].ctx.retired with
  | none =>
    rw [State.releaseRetired_of_still (by simp [retired, -Fin.getElem_fin]), Contexts.released_of_none retired]
  | some x =>
    by_cases unused : x.uses = 0
    · rw [State.releaseRetired_of_unused retired unused, Contexts.released_of_unused retired unused,
        State.modifyContexts_outputs, vector_set_self, State.unpin_outputs]
    · rw [State.releaseRetired_of_still (by simpa [retired, -Fin.getElem_fin] using unused),
        Contexts.released_of_used retired unused]

theorem State.releaseRetired_cache (o : OutId) (s : State) : (s.releaseRetired o).cache = s.cache := by
  unfold State.releaseRetired
  split
  · rfl
  · split
    · exact (State.modifyOutput_changesOnly o _ _ .cache (by simp)).trans (State.unpin_changesOnly _ s .cache
        (by simp [feedParts]))
    · rfl

theorem State.releaseRetired_givingUp {s : State} (holds : s.noticeHolds) (o : OutId) :
    s.quietly (givingUp o) [.output o] (s.releaseRetired o) := by
  unfold State.releaseRetired
  split
  · exact State.quietly_refl _ _ holds
  · split
    · next x _ _ =>
      have unpinned := State.unpin_givingUp (o := o) holds x
      exact State.quietly_trans unpinned (State.modifyContexts_givingUp unpinned.2.2 _)
    · exact State.quietly_refl _ _ holds

/-! ### The completion up to that release (R80, R102, R107, R116, R125) -/

section completing
variable {o : OutId} {b : Build} {s : State}

theorem State.faultyBuild_iff : s.faultyBuild b = true ↔ ∃ h ∈ b.holds, s.cache.entries[h.2].state = .faulted := by
  simp [State.faultyBuild]

/-- What holds of the output's write, with or without its mark, holds of the completion if the cache is not named. -/
theorem State.completing_elim {P : State → Prop}
    (written : P (s.modifyOutput o (Output.completed b (s.computeLine b) (s.faultyBuild b))))
    (marked : ∀ t, P t → P (t.mark (.output o)))
    (released : ∀ (t : State) (c : Cache), P t → P { t with cache := c }) :
    P (s.completing o b) := by
  refine released _ _ ?_
  show P (if s.faultyBuild b then State.mark (.output o) _ else _)
  split
  · exact marked _ written
  · exact written

theorem State.completing_changesOnly :
    s.changesOnly [.output o, .cache, .class3, .deviceWord] (s.completing o b) := by
  refine State.completing_elim ?_ (fun t only => ?_) fun t c only => ?_
  · exact State.changesOnly_mono (s.modifyOutput_changesOnly o _) (by simp)
  · exact State.changesOnly_trans only (State.changesOnly_mono (t.mark_changesOnly _) (by simp))
  · refine State.changesOnly_trans only fun p other => ?_
    cases p <;> simp_all [State.same, State.ref]

theorem State.completing_onlyMarks : s.onlyMarks [.output o] (s.completing o b) := by
  refine State.completing_elim (s.modifyOutput_onlyMarks _ (by simp)) (fun t only => ?_) fun t c only => ?_
  · exact State.onlyMarks_trans only (t.mark_onlyMarks _ (.inr (by simp [RecordSel.part])))
  · exact State.onlyMarks_trans only (State.onlyMarks_of_class3 rfl)

theorem State.completing_noticeHolds : (s.completing o b).noticeHolds :=
  State.completing_elim (State.putOutput_noticeHolds ..) (fun _ holds => State.mark_noticeHolds holds _)
    fun _ _ holds => State.noticeHolds_congr holds rfl rfl rfl rfl

theorem State.completing_marked (faulty : s.faultyBuild b = true) : (s.completing o b).marked (.output o) := by
  have marked := (s.modifyOutput o (Output.completed b (s.computeLine b) (s.faultyBuild b))).mark_marked (.output o)
  refine State.mem_of_onlyMarks (ps := []) (State.onlyMarks_of_class3 ?_) marked
  simp only [State.completing, if_pos faulty]

theorem State.completing_cache :
    (s.completing o b).cache = b.holds.foldl (fun (c : Cache) (h : CacheKey × EntryId) => c.release h.2) s.cache := by
  simp only [State.completing, apply_ite State.cache, State.mark_cache, ite_self, State.modifyOutput,
    State.putOutput_cache]

end completing

theorem LineBuilder.finish_eq (i : Fin 2) (bytes : List Byte) (lb : LineBuilder) : lb.finish i bytes =
    { lb with
      build := none
      lastTouched := if lb.buffers[i].stale then lb.lastTouched else some i
      buffers := lb.buffers.set i
        (if lb.buffers[i].stale then ⟨.empty, none, none, false, []⟩
         else { lb.buffers[i] with state := .ready, bytes := bytes }) } := by
  unfold LineBuilder.finish
  cases stale : lb.buffers[i].stale <;> rfl

theorem Context.leave_eq {used : Context → Context} {clips : Nat}
    (h : ∀ x, used x = { x with uses := x.uses - 1, clips := min (x.clips + clips) 65535 }) :
    Context.leave clips = used := funext fun x => (h x).symm

theorem Output.completed_of_sound (b : Build) (line : List Byte × Nat) (x : Output) :
    x.completed b line false =
      { x with
        ctx := x.ctx.changeUser b.parity (Context.leave line.2), builder := x.builder.finish b.buffer line.1 } := rfl

theorem Output.completed_of_faulty (b : Build) (line : List Byte × Nat) (x : Output) :
    x.completed b line true =
      { x with
        ctx := x.ctx.changeUser b.parity (Context.leave line.2), builder := x.builder.finish b.buffer line.1
        report :=
          { x.report with
            fetchErrors := if x.report.fetchErrors < 65535 then x.report.fetchErrors + 1 else x.report.fetchErrors }
        word := x.word ||| 0x0010 } := by
  rfl

theorem exec_lineBuildCompletion {s : State} (run : s.resetting = false) (o : OutId) :
    exec (.lineBuildCompletion o) s = .next (s.buildCompletion o) :=
  State.unlessReset_of_running run fun s => .next (s.buildCompletion o)

theorem State.buildCompletion_of_early {o : OutId} {s : State} (idle : s.outputs[o].builder.build = none ∨
    ∃ d, s.outputs[o].builder.build = some d ∧ s.canComplete d = false) : s.buildCompletion o = s := by
  unfold State.buildCompletion
  rcases idle with none_ | ⟨d, build, early⟩
  · rw [none_]
  · rw [build]
    exact if_neg (by simp [early])

theorem State.buildCompletion_of_due {o : OutId} {d : Build} {s : State} (build : s.outputs[o].builder.build = some d)
    (due : s.canComplete d = true) : s.buildCompletion o = (s.completeBuild o d).flush := by
  unfold State.buildCompletion
  rw [build]
  exact if_pos due

/-- The contexts of a completed build: the user has one use less, and a retired one that no build uses any more is
absent (R77, R80). -/
theorem Contexts.released_changeUser_of_held {k : Contexts} (none_ : k.retired = none) (p : Parity)
    (g : Context → Context) : (k.changeUser p g).released = k.setHeld p ((k.held p).map g) := by
  have changed : k.changeUser p g = k.changeHeld p g := by rw [Contexts.changeUser, none_]
  rw [changed, Contexts.released_of_none]
  · rfl
  · rw [Contexts.changeHeld, Contexts.setHeld_retired, none_]

theorem Contexts.changeUser_of_retired {k : Contexts} {z : Context} (retired : k.retired = some z) (p : Parity)
    (g : Context → Context) : k.changeUser p g = { k with retired := some (g z) } := by
  rw [Contexts.changeUser, retired]

/-- The state after a completion, up to the head beat. -/
def State.completedTo (o : OutId) (d : Build) (s : State) : State := (s.completing o d).releaseRetired o

section completed
variable {o : OutId} {d : Build} {s : State}

theorem State.completedTo_output : (s.completedTo o d).outputs[o] =
    { s.outputs[o].completed d (s.computeLine d) (s.faultyBuild d) with
      ctx := (s.outputs[o].ctx.changeUser d.parity (Context.leave (s.computeLine d).2)).released } := by
  have own : (s.completing o d).outputs[o] = s.outputs[o].completed d (s.computeLine d) (s.faultyBuild d) := by
    rw [State.completing_outputs, vector_set_self]
  rw [State.completedTo, State.releaseRetired_output, own, (Output.completed_keeps ..).2.2]

theorem State.completedTo_builder : (s.completedTo o d).outputs[o].builder =
    s.outputs[o].builder.finish d.buffer (s.computeLine d).1 := by
  rw [State.completedTo_output]
  exact (Output.completed_keeps ..).1

theorem State.completedTo_feeds_of_used (stays : ∀ z, s.outputs[o].ctx.retired = some z → 1 < z.uses) :
    (s.completedTo o d).feeds = s.feeds := by
  have own : (s.completing o d).outputs[o].ctx =
      s.outputs[o].ctx.changeUser d.parity (Context.leave (s.computeLine d).2) := by
    rw [State.completing_outputs, vector_set_self, (Output.completed_keeps ..).2.2]
  have still : ∀ z, (s.completing o d).outputs[o].ctx.retired = some z → z.uses ≠ 0 := by
    intro z retired
    rw [own] at retired
    cases before : s.outputs[o].ctx.retired with
    | none =>
      rw [Contexts.changeUser, before, Contexts.changeHeld, Contexts.setHeld_retired, before] at retired
      cases retired
    | some y =>
      rw [Contexts.changeUser_of_retired before] at retired
      cases retired
      have := stays y before
      show y.uses - 1 ≠ 0
      omega
  rw [State.completedTo, State.releaseRetired_of_still still, State.completing_feeds]

theorem State.completedTo_repins_of_unused {z : Context} (retired : s.outputs[o].ctx.retired = some z)
    (unused : z.uses ≤ 1) : s.Repins (fun f n k => k - z.pinsOn f n) (s.completedTo o d) := by
  have own : (s.completing o d).outputs[o].ctx.retired = some (z.leave (s.computeLine d).2) := by
    rw [State.completing_outputs, vector_set_self, (Output.completed_keeps ..).2.2,
      Contexts.changeUser_of_retired retired]
  have last : (z.leave (s.computeLine d).2).uses = 0 := by
    show z.uses - 1 = 0
    omega
  rw [State.completedTo, State.releaseRetired_of_unused own last]
  exact ((State.Repins.of_feeds (s.completing_feeds o d)).trans (State.unpin_repins _ _)).feeds_eq
    (State.modifyContexts_feeds ..)

/-- What a completion may change, and that the notice line holds after it. -/
theorem State.completedTo_frame :
    s.changesOnly ([.output o, .cache, .class3, .deviceWord] ++ feedParts) (s.completedTo o d) ∧
      (s.completing o d).onlyMarks [.output o] (s.completedTo o d) ∧ (s.completedTo o d).noticeHolds := by
  obtain ⟨only, marks, notice⟩ :=
    State.releaseRetired_givingUp (State.completing_noticeHolds (o := o) (b := d) (s := s)) o
  exact ⟨State.changesOnly_trans (State.changesOnly_mono State.completing_changesOnly (by simp))
    (State.changesOnly_mono only fun p mem => by simp [givingUp] at mem ⊢; tauto), marks, notice⟩

end completed

/-- Settles O40: the completion is a write of its output, the releases of its entries and of a retired context, and
then the head beat and the prefetch. -/
theorem buildCompletionFillsTheBuffer : Obligations.BuildCompletionFillsTheBuffer := by
  refine ⟨fun o s run idle => ?_, fun o d used faulty s run holds build due leaves faults => ?_⟩
  · rw [exec_lineBuildCompletion run, State.buildCompletion_of_early idle]
  have leave : Context.leave (s.computeLine d).2 = used := Context.leave_eq leaves
  have faulty_iff : faulty ↔ s.faultyBuild d = true := faults.trans State.faultyBuild_iff.symm
  have output := State.completedTo_output (o := o) (d := d) (s := s)
  obtain ⟨only, marks, notice⟩ := State.completedTo_frame (o := o) (d := d) (s := s)
  refine ⟨s.completedTo o d, ?done, only, State.onlyMarks_trans State.completing_onlyMarks marks, notice,
    fun is => State.mem_of_onlyMarks marks (State.completing_marked (faulty_iff.1 is)), ?builder,
    fun none_ => ⟨?held, fun f => ?heldFeeds⟩, fun z retired stays => ⟨?retired, fun f => ?retiredFeeds⟩,
    fun z retired last => ⟨?released, fun f => ?releasedFeeds⟩, ?cache, fun is => ?faulty, fun is => ?sound, ?rest⟩
  case done =>
    rw [exec_lineBuildCompletion run, State.buildCompletion_of_due build due, State.completeBuild_eq]
    rfl
  case builder => rw [State.completedTo_builder, LineBuilder.finish_eq]
  case held => rw [output, leave, Contexts.released_changeUser_of_held none_]
  case heldFeeds => rw [State.completedTo_feeds_of_used (by simp [none_, -Fin.getElem_fin])]
  case retired =>
    rw [output, leave, Contexts.changeUser_of_retired retired, Contexts.released_of_used rfl]
    rw [leaves z]
    show z.uses - 1 ≠ 0
    omega
  case retiredFeeds =>
    rw [State.completedTo_feeds_of_used (by simpa [retired, -Fin.getElem_fin] using stays)]
  case released =>
    rw [output, leave, Contexts.changeUser_of_retired retired, Contexts.released_of_unused rfl]
    rw [leaves z]
    show z.uses - 1 = 0
    omega
  case releasedFeeds => exact State.completedTo_repins_of_unused retired last f
  case cache => rw [State.completedTo, State.releaseRetired_cache, State.completing_cache]
  case faulty =>
    rw [output, faulty_iff.1 is, Output.completed_of_faulty]
    exact ⟨rfl, rfl⟩
  case sound =>
    rw [output, Bool.eq_false_iff.2 (mt faulty_iff.2 is), Output.completed_of_sound]
    exact ⟨rfl, rfl⟩
  case rest =>
    rw [output]
    cases s.faultyBuild d <;> rfl

end Sys2Proof.Machine
end

section
/-! The interpolation arithmetic (05): the vertical positions (R88 to R91), the sums of a sample (R96 to R100) and the
line of a build with its clip tally (R99 to R103). -/

namespace Sys2Proof.Machine

/-! ### The magnitude of the sums (R97 to R100) -/

theorem natAbs_mul_le {a b : Int} {m n : Nat} (ha : a.natAbs ≤ m) (hb : b.natAbs ≤ n) : (a * b).natAbs ≤ m * n := by
  rw [Int.natAbs_mul]
  exact Nat.mul_le_mul ha hb

/-- A product of a coefficient and a ten-bit value (R94, R96). -/
theorem natAbs_coef_mul_le {c : Int} {v : Nat} (coef : -512 ≤ c ∧ c ≤ 511) (value : v ≤ 1023) :
    (c * v).natAbs ≤ 523776 :=
  natAbs_mul_le (m := 512) (n := 1023) (by omega) (by omega)

theorem natAbs_verticalSum_le {c : Coefs} {v0 v1 v2 v3 : Nat}
    (coefs : ∀ x ∈ [c.c0, c.c1, c.c2, c.c3], -512 ≤ x ∧ x ≤ 511) (values : ∀ v ∈ [v0, v1, v2, v3], v ≤ 1023) :
    (verticalSum c v0 v1 v2 v3).natAbs ≤ 2095104 := by
  have p0 := natAbs_coef_mul_le (coefs c.c0 (by simp)) (values v0 (by simp))
  have p1 := natAbs_coef_mul_le (coefs c.c1 (by simp)) (values v1 (by simp))
  have p2 := natAbs_coef_mul_le (coefs c.c2 (by simp)) (values v2 (by simp))
  have p3 := natAbs_coef_mul_le (coefs c.c3 (by simp)) (values v3 (by simp))
  unfold verticalSum
  omega

/-- The weights of the two records add up to 256 (R98). -/
theorem natAbs_temporalSum_le {w : Nat} {va vb : Int} (weight : w ≤ 256) (a : va.natAbs ≤ 2095104)
    (b : vb.natAbs ≤ 2095104) : (temporalSum w va vb).natAbs ≤ 536346624 := by
  have first : ((256 - w : Int) * va).natAbs ≤ (256 - w) * 2095104 := natAbs_mul_le (by omega) a
  have second : ((w : Int) * vb).natAbs ≤ w * 2095104 := natAbs_mul_le (by omega) b
  unfold temporalSum
  omega

/-! ### The vertical position (R88 to R91) -/

/-- The position of an output line lies within a line above the record and its last line, in thirty-seconds. -/
theorem pos32_bounds {hs ho y : Nat} {p : Parity} (source : 128 ≤ hs) (inside : y < ho)
    (even : p ≠ .whole → hs % 2 = 0) :
    -32 ≤ pos32 hs ho y p ∧ pos32 hs ho y p < 32 * (recordLines hs p : Int) := by
  have last : (2 * y + 1) * hs ≤ (2 * ho - 1) * hs := Nat.mul_le_mul_right hs (by omega)
  have span : (2 * ho - 1) * hs + hs = 2 * (ho * hs) := by
    have joined : (2 * ho - 1) * hs + hs = (2 * ho - 1 + 1) * hs := by ring
    rw [joined, show 2 * ho - 1 + 1 = 2 * ho by omega, Nat.mul_assoc]
  have first : hs ≤ (2 * y + 1) * hs := Nat.le_mul_of_pos_left hs (by omega)
  have place : (2 * (y : Int) + 1) * hs = ((2 * y + 1) * hs : Nat) := by push_cast; rfl
  unfold pos32 recordLines
  cases p with
  | whole =>
    have whole : (32 * (hs : Int)) * (2 * ho) = 64 * ((ho * hs : Nat) : Int) := by push_cast; ring
    simp only [Parity.bit, if_true, place]
    refine ⟨(Int.le_ediv_iff_mul_le (by omega)).2 (by omega), (Int.ediv_lt_iff_lt_mul (by omega)).2 ?_⟩
    rw [whole]
    omega
  | top | bottom =>
    have half : hs = 2 * (hs / 2) := by have := even (by simp); omega
    have whole : (32 * ((hs / 2 : Nat) : Int)) * (4 * ho) = 64 * ((ho * hs : Nat) : Int) := by
      push_cast
      nth_rewrite 2 [half]
      push_cast
      ring
    simp only [Parity.bit, reduceCtorEq, if_false, place]
    refine ⟨(Int.le_ediv_iff_mul_le (by omega)).2 (by omega), (Int.ediv_lt_iff_lt_mul (by omega)).2 ?_⟩
    rw [whole]
    omega

theorem phaseOf_lt (hs ho y : Nat) (p : Parity) : phaseOf hs ho y p < 32 := by
  unfold phaseOf
  omega

theorem pos32_eq (hs ho y : Nat) (p : Parity) :
    pos32 hs ho y p = 32 * baseLine hs ho y p + phaseOf hs ho y p := by
  unfold baseLine phaseOf
  omega

/-- Settles O51: the products of a sample are bounded one by one, and the position of a line follows from those of the
first and the last line. -/
theorem sumsAndPositionsStayInRange : Obligations.SumsAndPositionsStayInRange := by
  refine ⟨fun c v0 v1 v2 v3 coefs values => natAbs_verticalSum_le coefs values, fun w va vb weight a b => ?sums,
    fun hs ho y p source _ _ _ inside even => ?positions⟩
  case sums =>
    have bound := natAbs_temporalSum_le weight a b
    unfold roundSum
    omega
  case positions =>
    have bounds := pos32_bounds source inside even
    have lines : 0 < recordLines hs p := by unfold recordLines; split <;> omega
    refine ⟨?_, ?_, phaseOf_lt .., pos32_eq .., fun i _ => ⟨?_, fun low high => ?_⟩⟩
    · unfold baseLine; omega
    · unfold baseLine; omega
    · unfold tapLine clampTo; omega
    · unfold tapLine clampTo; omega

end Sys2Proof.Machine
end

section
/-! The line of a build (R99 to R106): its containers, its clip tally, and what it shows when tap lines are FAULTED. -/

namespace Sys2Proof.Machine

/-! ### Lines of two-byte containers (R103) -/

theorem container_eq (v : Nat) : container v = [BitVec.ofNat 8 (v % 1024), BitVec.ofNat 8 (v % 1024 / 256)] := rfl

/-- Where every element gives two bytes, element `i` gives bytes `2i` and `2i + 1`. -/
theorem getElem?_flatMap_two {α β : Type} {f : α → List β} (two : ∀ a, (f a).length = 2) {j : Nat} (inside : j < 2) :
    ∀ (l : List α) (i : Nat), (l.flatMap f)[2 * i + j]? = l[i]?.bind fun a => (f a)[j]?
  | [], _ => by simp
  | a :: l, 0 => by
    rw [List.flatMap_cons, List.getElem?_append_left (by rw [two]; omega)]
    simp
  | a :: l, i + 1 => by
    have next : 2 * (i + 1) + j - (f a).length = 2 * i + j := by rw [two]; omega
    rw [List.flatMap_cons, List.getElem?_append_right (by rw [two]; omega), next, getElem?_flatMap_two two inside l i]
    simp

theorem length_flatMap_two {α β : Type} {f : α → List β} (two : ∀ a, (f a).length = 2) (l : List α) :
    (l.flatMap f).length = 2 * l.length := by
  simp [List.length_flatMap, two, Nat.mul_comm]

/-- Byte `b` of a line of one colour is that of its container (R103, R110). -/
theorem fillLine_eq (k : Colour) (n : Nat) : fillLine k (2 * n) = (List.range (4 * n)).map (colourByte k) := by
  have two (x : Nat) : (container (k.at x)).length = 2 := rfl
  refine List.ext_getElem? fun b => ?_
  have place : b = 2 * (b / 2) + b % 2 := by omega
  have low : b % 2 < 2 := Nat.mod_lt _ (by decide)
  have byte : (container (k.at (b / 2)))[b % 2]? = some (fillByte k b) := by
    rw [fillByte, List.getD_eq_getElem?_getD, List.getElem?_eq_getElem (by rw [two]; exact low)]
    rfl
  by_cases inside : b < 4 * n
  · have half : b / 2 < 2 * n := by omega
    conv_lhs => rw [place]
    rw [fillLine, getElem?_flatMap_two two low, List.getElem?_range half, Option.bind_some, byte,
      fillByte_eq_colourByte]
    simp [inside]
  · rw [List.getElem?_eq_none (by rw [fillLine, length_flatMap_two two, List.length_range]; omega),
      List.getElem?_eq_none (by simpa using inside)]

/-! ### The sums of a line, clamped (R99, R101, R102) -/

/-- A line that shows sums, written container by container. -/
theorem Build.compute_of_shown {sh : Shows} (shown : sh ≠ .fill) (d : Build) (la lb : List (List Byte)) :
    d.compute sh la lb =
      ((List.range (2 * d.width)).flatMap fun x =>
          container (clampComponent d.clip (isLuma x) (d.valueAt sh la lb x)).toNat,
        ((List.range (2 * d.width)).filter fun x =>
          decide (d.valueAt sh la lb x ≠ clampComponent d.clip (isLuma x) (d.valueAt sh la lb x))).length) := by
  cases sh with
  | fill => exact absurd rfl shown
  | blend | onlyA | onlyB => simp [Build.compute, List.flatMap_map, List.filter_map, Function.comp_def]

theorem clampTo_ne_iff {lo hi v : Int} (range : lo ≤ hi) : v ≠ clampTo lo hi v ↔ v < lo ∨ hi < v := by
  unfold clampTo
  omega

/-- A line that shows the sums `sum` holds them rounded and clamped, with the tally of the clamp. -/
theorem Build.compute_showsSums {sh : Shows} (shown : sh ≠ .fill) {d : Build} {la lb : List (List Byte)}
    {sum : Nat → Int} (sums : ∀ x, shownSum sh d.weight (d.sumAt d.a la x) (d.sumAt d.b lb x) = sum x) :
    d.showsSums sum (d.compute sh la lb) := by
  have value (x : Nat) : d.valueAt sh la lb x = (sum x + 32768) / 65536 := by rw [Build.valueAt, sums, roundSum]
  rw [Build.compute_of_shown shown]
  simp only [value]
  have two (x : Nat) :
      (container (clampComponent d.clip (isLuma x) ((sum x + 32768) / 65536)).toNat).length = 2 := rfl
  unfold Build.showsSums
  intro lo hi
  have range (x : Nat) : clipRange d.clip (isLuma x) = (lo, hi x) ∧ 0 ≤ lo ∧ lo ≤ hi x ∧ hi x < 1024 := by
    simp only [lo, hi, isLuma]
    rcases Nat.mod_two_eq_zero_or_one x with even | odd
    · rw [even]; cases d.clip <;> decide
    · rw [odd]; cases d.clip <;> decide
  have clamped (x : Nat) (v : Int) : clampComponent d.clip (isLuma x) v = max lo (min v (hi x)) := by
    rw [clampComponent, (range x).1]; rfl
  refine ⟨?length, fun x v inside same => ?bytes, ?tally⟩
  case length =>
    rw [length_flatMap_two two, List.length_range]
    omega
  case bytes =>
    obtain ⟨-, low, ordered, high⟩ := range x
    have whole : (v.toNat : Int) = v := Int.toNat_of_nonneg (by omega)
    have ten : v.toNat % 1024 = v.toNat := Nat.mod_eq_of_lt (by omega)
    have lowByte : BitVec.ofNat 8 v.toNat = BitVec.ofInt 8 v := by rw [← BitVec.ofInt_natCast, whole]
    have highByte : BitVec.ofNat 8 (v.toNat / 256) = BitVec.ofInt 8 (v / 256) := by
      rw [← BitVec.ofInt_natCast, Int.natCast_ediv, whole]
      rfl
    have byte (j : Nat) (h : j < 2) := getElem?_flatMap_two two h (List.range (2 * d.width)) x
    simp only [List.getElem?_range inside, Option.bind_some, clamped, ← same, container_eq, ten, lowByte,
      highByte] at byte
    simp only [clamped, container_eq]
    refine ⟨byte 0 (by decide), byte 1 (by decide), by omega⟩
  case tally =>
    refine congrArg List.length (List.filter_congr fun x _ => decide_eq_decide.2 ?_)
    obtain ⟨same, -, ordered, -⟩ := range x
    rw [clampComponent, same]
    exact clampTo_ne_iff ordered

/-- Settles O49: the line that shows both records is that of their temporal sums, and a vertical sum is its four
products. -/
theorem builtLineHoldsTheClippedSums : Obligations.BuiltLineHoldsTheClippedSums := by
  refine ⟨fun d la lb => Build.compute_showsSums (by decide) fun x => rfl,
    fun d r p l0 l1 l2 l3 x phase => ?_⟩
  have index : Fin.ofNat 32 (phaseOf d.sourceLines d.outLines d.line r.parity) = p := by
    rw [← phase]
    exact Fin.ofNat_val_eq_self p
  simp only [Build.sumAt, index]
  rfl

/-! ### The tap lines that a build asks for (R87, R91, R92, R104, R105) -/

/-- The keys of `ks` that are not among `acc`, each at its first place, behind `acc` (R92). -/
theorem foldl_distinct : ∀ (ks acc : List CacheKey), acc.Nodup → ∃ more : List CacheKey,
    ks.foldl (fun acc k => if acc.contains k then acc else acc ++ [k]) acc = acc ++ more ∧ more.Sublist ks ∧
      (acc ++ more).Nodup ∧ ∀ k ∈ ks, k ∈ acc ++ more
  | [], acc, nodup => ⟨[], by simpa using nodup⟩
  | k :: ks, acc, nodup => by
    by_cases seen : k ∈ acc
    · obtain ⟨more, result, sub, fresh, all⟩ := foldl_distinct ks acc nodup
      refine ⟨more, by simpa [seen] using result, sub.cons k, fresh, ?_⟩
      exact List.forall_mem_cons.2 ⟨List.mem_append_left _ seen, all⟩
    · have longer : (acc ++ [k]).Nodup := by
        simpa [List.nodup_append, nodup] using fun a m (same : a = k) => seen (same ▸ m)
      obtain ⟨more, result, sub, fresh, all⟩ := foldl_distinct ks (acc ++ [k]) longer
      have shift : acc ++ [k] ++ more = acc ++ (k :: more) := by simp
      rw [shift] at result fresh all
      refine ⟨k :: more, by simpa [seen] using result, sub.cons_cons k, fresh, ?_⟩
      exact List.forall_mem_cons.2 ⟨by simp, all⟩

theorem distinct_spec (ks : List CacheKey) :
    (distinct ks).Nodup ∧ (distinct ks).Sublist ks ∧ ∀ k, k ∈ distinct ks ↔ k ∈ ks := by
  obtain ⟨more, result, sub, fresh, all⟩ := foldl_distinct ks [] List.nodup_nil
  rw [List.nil_append] at result fresh
  rw [distinct, result]
  exact ⟨fresh, sub, fun k => ⟨fun m => sub.mem m, all k⟩⟩

theorem Build.mem_taps {d : Build} {r : FixedRecord} {k : CacheKey} : k ∈ d.taps r ↔ ∃ i < 4, k = d.tapKey r i := by
  simp [Build.taps, eq_comm]

theorem Build.mem_firstKeys {d : Build} {k : CacheKey} : k ∈ d.firstKeys ↔
    (d.weight < 256 ∧ k ∈ d.taps d.a) ∨ (0 < d.weight ∧ k ∈ d.taps d.b) := by
  rw [Build.firstKeys, (distinct_spec _).2.2, List.mem_append]
  refine or_congr ?_ ?_ <;> split <;> simp_all

theorem Build.firstKeys_sublist (d : Build) : d.firstKeys.Sublist (d.taps d.a ++ d.taps d.b) := by
  refine (distinct_spec _).2.1.trans (List.Sublist.append ?_ ?_)
  · split
    · exact List.Sublist.refl _
    · exact List.nil_sublist _
  · split
    · exact List.Sublist.refl _
    · exact List.nil_sublist _

/-- The keys of the other record that a fault calls for, by the weight (R104, R105). -/
theorem Build.concealKeys_eq (d : Build) (fa fb : Bool) : d.concealKeys fa fb =
    if d.a.number ≠ d.b.number then
      if d.weight = 0 ∧ fa = true then distinct (d.taps d.b)
      else if d.weight = 256 ∧ fb = true then distinct (d.taps d.a) else []
    else [] := by
  simp [Build.concealKeys, Build.same]

theorem Build.nodup_concealKeys (d : Build) (fa fb : Bool) : (d.concealKeys fa fb).Nodup := by
  rw [Build.concealKeys_eq]
  repeat' split
  · exact (distinct_spec _).1
  · exact (distinct_spec _).1
  · exact List.nodup_nil
  · exact List.nodup_nil

theorem Build.mem_concealKeys {d : Build} {fa fb : Bool} {k : CacheKey} : k ∈ d.concealKeys fa fb ↔
    d.a.number ≠ d.b.number ∧
      ((d.weight = 0 ∧ fa = true ∧ k ∈ d.taps d.b) ∨ (d.weight = 256 ∧ fb = true ∧ k ∈ d.taps d.a)) := by
  rw [Build.concealKeys_eq]
  split
  · next apart =>
    split
    · next first =>
      rw [(distinct_spec _).2.2]
      simp [apart, first]
    · next first =>
      split
      · next second =>
        rw [(distinct_spec _).2.2]
        simp [apart, second]
      · next second => simp only [List.not_mem_nil]; tauto
  · next same => simp [same]

/-! ### When a build can complete (R115) -/

theorem Build.entryOf_isSome {d : Build} {k : CacheKey} : (d.entryOf k).isSome = true ↔ ∃ h ∈ d.holds, h.1 = k := by
  simp [Build.entryOf]

theorem State.faulted_iff {d : Build} {r : FixedRecord} {s : State} : s.faulted d r = true ↔
    ∃ i e, i < 4 ∧ d.entryOf (d.tapKey r i) = some e ∧ s.cache.entries[e].state = .faulted := by
  rw [State.faulted, List.any_eq_true]
  constructor
  · rintro ⟨k, tap, fault⟩
    obtain ⟨i, inside, rfl⟩ := Build.mem_taps.1 tap
    cases held : d.entryOf (d.tapKey r i) with
    | none => simp [held] at fault
    | some e => exact ⟨i, e, inside, held, by simpa [held] using fault⟩
  · rintro ⟨i, e, inside, held, fault⟩
    exact ⟨_, Build.mem_taps.2 ⟨i, inside, rfl⟩, by simpa [held] using fault⟩

theorem State.settled_iff {d : Build} {s : State} :
    s.settled d = true ↔ ∀ h ∈ d.holds, s.cache.entries[h.2].state ≠ .fetching := by
  simp [State.settled]

theorem State.missingConceal_eq_nil {d : Build} {s : State} : s.missingConceal d = [] ↔
    ∀ k ∈ d.concealKeys (s.faulted d d.a) (s.faulted d d.b), ∃ h ∈ d.holds, h.1 = k := by
  simp only [State.missingConceal, List.filter_eq_nil_iff, ← Build.entryOf_isSome, Option.isNone_iff_eq_none,
    Option.isSome_iff_ne_none, ne_eq]

theorem State.canComplete_iff {d : Build} {s : State} : s.canComplete d = true ↔
    (∀ h ∈ d.holds, s.cache.entries[h.2].state ≠ .fetching) ∧ (∀ k ∈ d.firstKeys, ∃ h ∈ d.holds, h.1 = k) ∧
      ∀ k ∈ d.concealKeys (s.faulted d d.a) (s.faulted d d.b), ∃ h ∈ d.holds, h.1 = k := by
  simp only [State.canComplete, Bool.and_eq_true, State.settled_iff, List.isEmpty_iff, State.missingConceal_eq_nil,
    List.all_eq_true, Build.entryOf_isSome]
  tauto

/-! ### What a build shows (R87, R98, R104 to R106) -/

theorem showsOf_sound (same : Bool) (w : Nat) :
    showsOf same w false false = if w = 0 then .onlyA else if w = 256 then .onlyB else .blend := by
  cases same <;> simp [showsOf]

theorem showsOf_onlyB (w : Nat) : showsOf false w true false = .onlyB := by
  simp [showsOf]

theorem showsOf_onlyA (w : Nat) : showsOf false w false true = .onlyA := by
  simp [showsOf]

theorem showsOf_fill {same fa fb : Bool} (w : Nat) (none_ : (fa = true ∧ fb = true) ∨
    (same = true ∧ (fa = true ∨ fb = true))) : showsOf same w fa fb = .fill := by
  rcases none_ with ⟨rfl, rfl⟩ | ⟨rfl, fault⟩
  · cases same <;> rfl
  · have either : (fa || fb) = true := Bool.or_eq_true_iff.2 fault
    simp [showsOf, either]

/-- With no fault the weight alone decides, and each record's sum counts by it (R87, R98). -/
theorem shownSum_of_sound (same : Bool) {w : Nat} (va vb : Int) :
    showsOf same w false false ≠ .fill ∧
      shownSum (showsOf same w false false) w va vb = (256 - w : Int) * va + w * vb := by
  rw [showsOf_sound]
  split
  · next zero => subst zero; simp [shownSum]
  · split
    · next top => subst top; simp [shownSum]
    · exact ⟨by decide, rfl⟩

/-- Settles O50: the keys of a build by membership, and its line by the faults of the two records. -/
theorem faultedLinesAreConcealed : Obligations.FaultedLinesAreConcealed := by
  refine ⟨fun d key named => ?keys, fun d s faulted sum faults sums => ?line⟩
  case keys =>
    have same : key = d.tapKey := by
      funext r i
      rw [named]
      rfl
    subst same
    refine ⟨fun r => rfl, (distinct_spec _).1, d.length_firstKeys_le, d.firstKeys_sublist, fun k => ?_, fun fa fb =>
      ⟨d.nodup_concealKeys fa fb, fun k => ?_⟩⟩
    · rw [Build.mem_firstKeys, Build.mem_taps, Build.mem_taps]
    · rw [Build.mem_concealKeys, Build.mem_taps, Build.mem_taps]
  case line =>
    have found (r : FixedRecord) : s.faulted d r = true ↔ faulted r := State.faulted_iff.trans (faults r).symm
    have clear (r : FixedRecord) : s.faulted d r = false ↔ ¬ faulted r := by rw [← found, Bool.not_eq_true]
    refine ⟨?complete, fun soundA soundB _ => ?sound, fun apart faultA soundB => ?onlyB,
      fun apart faultB soundA => ?onlyA, fun none_ => ?fill⟩
    case complete =>
      rw [State.canComplete_iff]
      refine and_congr_right fun _ => and_congr_right fun _ => ⟨fun held fa fb ha hb => ?_, fun held =>
        held _ _ (found d.a) (found d.b)⟩
      have a : s.faulted d d.a = fa := Bool.eq_iff_iff.2 ((found d.a).trans ha.symm)
      have b : s.faulted d d.b = fb := Bool.eq_iff_iff.2 ((found d.b).trans hb.symm)
      rwa [a, b] at held
    all_goals rw [State.computeLine]
    case sound =>
      rw [(clear d.a).2 soundA, (clear d.b).2 soundB]
      refine Build.compute_showsSums (shownSum_of_sound _ 0 0).1 fun x => ?_
      rw [(shownSum_of_sound ..).2, sums, sums]
    case onlyB =>
      rw [(found d.a).2 faultA, (clear d.b).2 soundB, show d.same = false from decide_eq_false apart, showsOf_onlyB]
      exact Build.compute_showsSums (by decide) fun x => congrArg (256 * ·) (sums d.b x).symm
    case onlyA =>
      rw [(clear d.a).2 soundA, (found d.b).2 faultB, show d.same = false from decide_eq_false apart, showsOf_onlyA]
      exact Build.compute_showsSums (by decide) fun x => congrArg (256 * ·) (sums d.a x).symm
    case fill =>
      rw [showsOf_fill]
      · exact congrArg (·, 0) (fillLine_eq d.fill d.width)
      · simpa only [found, Build.same, decide_eq_true_eq] using none_

end Sys2Proof.Machine
end

section
/-! The coefficient load (R94, R183): LOAD_COEFFICIENTS requests the table, and the answer to the request ends the
load. -/

namespace Sys2Proof.Machine

/-! ### LOAD_COEFFICIENTS -/

theorem State.taken_changesOnly (code : Byte) (w : CellWrite) (s : State) :
    s.changesOnly (CellParts w) (s.taken code w) := by
  have forwarded : s.changesOnly (CellParts w)
      (s.forward (w.burst s.controlBase code) (w.burst s.controlBase code) .control [w.cell] []) := by
    intro p named
    cases p <;> simp_all [State.same, State.ref, CellParts, State.forward, State.openBurst, State.openWrite,
      CellWrite.burst]
  exact State.changesOnly_trans forwarded
    (State.changesOnly_mono (State.putCell_changesOnly w.cell _ _) (by simp [CellParts]))

theorem State.mark_class3 (r : RecordSel) (s : State) :
    (s.mark r).class3 = s.class3 ∨ (s.mark r).class3 = s.class3 ++ [.record r] := by
  unfold State.mark
  split
  · exact .inl rfl
  · exact .inr rfl

/-- A cell written marks at most the device record (R168). -/
theorem State.putCell_class3 (c : CellId) (x : Cell) (s : State) :
    (s.putCell c x).class3 = s.class3 ∨ (s.putCell c x).class3 = s.class3 ++ [.record .device] := by
  unfold State.putCell
  dsimp only
  split
  · exact .inl rfl
  · exact State.mark_class3 .device { s with cells := s.cells.set c x }

theorem State.taken_class3 (code : Byte) (w : CellWrite) (s : State) :
    (s.taken code w).class3 = s.class3 ∨ (s.taken code w).class3 = s.class3 ++ [.record .device] := by
  have kept : (s.forward (w.burst s.controlBase code) (w.burst s.controlBase code) .control [w.cell] []).class3 =
      s.class3 := by simp
  rw [← kept]
  exact State.putCell_class3 w.cell _ _

theorem State.beginLoad_changesOnly (k : BankId) (c : CellId) (page : Page) (s : State) :
    s.changesOnly [.bank k, .class3] (s.beginLoad k c page) := by
  intro p named
  cases p <;> simp_all [State.same, State.ref, State.beginLoad, vector_set_other]

/-- A load that passes its checks begins (R169, R183). -/
theorem State.loadCoefficients_of_accepted {w : CellWrite} {k : BankId} {s : State} (target : targetBank w = some k)
    (unused : s.bankInUse k = false) (idle : s.banks[k].loading = none) (page : w.w1.toNat < 2 ^ 28) :
    s.loadCoefficients w = s.beginLoad k w.cell (w.w1.setWidth 28) := by
  have accepted : firstRefusal [need (!s.bankInUse k && s.banks[k].loading.isNone) .inUse,
      badParam (firstBad [(1, pageOk w.w1)])] = none := by
    refine firstRefusal_none fun r m => ?_
    simp only [List.mem_cons, List.not_mem_nil, or_false] at m
    rcases m with rfl | rfl
    · exact need_of_true (by rw [unused, idle]; rfl) _
    · rw [show pageOk w.w1 = true from decide_eq_true page]
      rfl
  simp only [State.loadCoefficients, target, accepted]

/-- Settles O14: the taken command passes its checks, and its table read joins class 3 behind what taking it marked. -/
theorem loadCoefficientsQueuesTheTableRead : Obligations.LoadCoefficientsQueuesTheTableRead := by
  intro w k s ready target unused idle page
  have banks : (s.taken 12 w).banks = s.banks := by simp [State.taken, State.takeCell]
  have unused' : (s.taken 12 w).bankInUse k = false := by
    rw [← unused]
    simp only [State.bankInUse, State.taken_outputs]
  have begun := State.loadCoefficients_of_accepted target unused' (by rw [banks]; exact idle) page
  refine ⟨_, State.cellRow_of_ready ready 12 State.loadCoefficients, ?_⟩
  rw [begun]
  refine ⟨s.taken_wrote 12 w, s.taken_cell 12 w, ?only, ?bank, ?class3⟩
  case only =>
    exact State.changesOnly_trans (State.changesOnly_mono (s.taken_changesOnly 12 w) (by simp))
      (State.changesOnly_mono (State.beginLoad_changesOnly k w.cell _ _) (by simp [CellParts]))
  case bank =>
    simp only [State.beginLoad, vector_set_self, banks]
  case class3 =>
    rcases s.taken_class3 12 w with same | marked
    · exact .inl (congrArg (· ++ [_]) same)
    · exact .inr ((congrArg (· ++ [_]) marked).trans (by simp))

/-! ### A response at the Memory Port (R150, R163) -/

/-- A response goes to the block whose burst is the oldest that it answers. -/
theorem State.replyRow_of_answers {r : Reply} {g : Granted} {s : State} (answers : s.answers r g) :
    replyRow r s = .next ((s.without r).finish g.work r) := by
  obtain ⟨run, oldest⟩ := answers
  rw [replyRow, State.unlessReset_of_running run, State.takeReply, oldest]
  rfl

theorem State.without_changesOnly (r : Reply) (s : State) : s.changesOnly [.granted] (s.without r) := by
  intro p named
  cases p <;> simp_all [State.same, State.ref, State.without]

/-! ### The end of a load -/

theorem anyError_iff {beats : List ReadBeat} :
    anyError beats = true ↔ ∃ x ∈ beats, x.resp = .slverr ∨ x.resp = .decerr := by
  rw [anyError, List.any_eq_true]
  refine exists_congr fun x => and_congr_right fun _ => ?_
  cases x.resp <;> simp [isError]

theorem anyError_eq_false {beats : List ReadBeat} (good : ∀ x ∈ beats, x.resp = .okay ∨ x.resp = .exokay) :
    anyError beats = false := by
  refine List.any_eq_false.2 fun x m => ?_
  rcases good x m with h | h <;> simp [h, isError]

/-- The lowest invalid phase is the one that the validity check finds (R94). -/
theorem CoefTable.firstInvalid_eq_some {t : CoefTable} {p : Fin 32} (bad : t[p].valid = false)
    (lowest : ∀ q : Fin 32, q < p → t[q].valid = true) : t.firstInvalid = some p := by
  rw [CoefTable.firstInvalid, List.find?_eq_some_iff_getElem]
  refine ⟨by simpa using bad, p.val, by simp, by simp, fun j below => ?_⟩
  simpa using lowest ⟨j, by omega⟩ below

theorem CoefTable.firstInvalid_eq_none {t : CoefTable} (valid : ∀ p : Fin 32, t[p].valid = true) :
    t.firstInvalid = none := by
  simpa [CoefTable.firstInvalid] using valid

theorem State.endLoad_changesOnly (k : BankId) (table : CoefTable) (s : State) :
    s.changesOnly [.bank k] (s.endLoad k table) := by
  intro p named
  cases p <;> simp_all [State.same, State.ref, State.endLoad, vector_set_other]

/-- A settled result is requested once, when the host's own write has been answered (R170). -/
theorem State.requestResult_cell {c : CellId} {a : ActiveCommand} {s : State} (active : s.cells[c] = some a) :
    (s.requestResult c).cells[c] =
      some { a with
        stage := if a.settled.isSome ∧ a.hostAnswered ∧ a.stage = .unrequested then .waiting else a.stage } := by
  by_cases due : a.settled.isSome ∧ a.hostAnswered ∧ a.stage = .unrequested
  · rw [if_pos due]
    obtain ⟨settled, answered, stage⟩ := due
    obtain ⟨r, settled⟩ := Option.isSome_iff_exists.1 settled
    simp only [State.requestResult, active, settled, answered, stage, State.putCell_cells, vector_set_self]
  · rw [if_neg due]
    have still : s.requestResult c = s := by
      unfold State.requestResult
      simp only [active]
      split
      · next settled answered stage => exact absurd ⟨by rw [settled]; rfl, answered, stage⟩ due
      · rfl
    rw [still, active]

theorem State.settle_cell_settledAs {c : CellId} {a : ActiveCommand} {s : State} (active : s.cells[c] = some a)
    (code : ResultCode) (detail : Byte) :
    (s.settle c code detail).cells[c] = some (a.settledAs code detail) := by
  have written : (s.putCell c (some { a with settled := some (code, detail) })).cells[c] =
      some { a with settled := some (code, detail) } := by rw [State.putCell_cells, vector_set_self]
  simp only [State.settle, active]
  rw [State.requestResult_cell written]
  simp only [Option.isSome_some, true_and]
  rfl

section load
variable {k : BankId} {c : CellId} {a : ActiveCommand} {s : State} (active : s.cells[c] = some a)
include active

/-- A load ended with a table and a result. -/
theorem State.endLoad_settle (table : CoefTable) (code : ResultCode) (detail : Byte) :
    s.changesOnly [.class3, .bank k, .cell c] ((s.endLoad k table).settle c code detail) ∧
      ((s.endLoad k table).settle c code detail).banks[k] = ⟨table, none⟩ ∧
      ((s.endLoad k table).settle c code detail).cells[c] = some (a.settledAs code detail) := by
  refine ⟨State.changesOnly_trans (State.changesOnly_mono (s.endLoad_changesOnly k table) (by simp))
    (State.changesOnly_mono (State.settle_changesOnly c code detail _) (by simp)), ?_, ?_⟩
  · rw [State.settle_banks, State.endLoad, vector_set_self]
  · exact State.settle_cell_settledAs (by rw [State.endLoad_cells]; exact active) code detail

end load

section completion
variable {k : BankId} {c : CellId} {beats : List ReadBeat} {s : State} (loading : s.banks[k].loading = some c)
include loading

theorem State.loadComplete_of_error (error : anyError beats = true) :
    s.loadComplete k beats = (s.endLoad k s.banks[k].table).settle c .fetchFailed 0 := by
  simp only [State.loadComplete, loading, error, if_true]

theorem State.loadComplete_of_invalid {p : Fin 32} (good : anyError beats = false)
    (bad : (tableOf (beatData beats)).firstInvalid = some p) :
    s.loadComplete k beats = (s.endLoad k s.banks[k].table).settle c .coefInvalid (BitVec.ofNat 8 p.val) := by
  simp only [State.loadComplete, loading, good, bad, Bool.false_eq_true, if_false]

theorem State.loadComplete_of_valid (good : anyError beats = false)
    (valid : (tableOf (beatData beats)).firstInvalid = none) :
    s.loadComplete k beats = (s.endLoad k (tableOf (beatData beats))).settle c .done 0 := by
  simp only [State.loadComplete, loading, good, valid, Bool.false_eq_true, if_false]

/-- A load ends with some table and some result. -/
theorem State.loadComplete_ends : ∃ table code detail,
    s.loadComplete k beats = (s.endLoad k table).settle c code detail := by
  cases error : anyError beats with
  | true => exact ⟨_, _, _, State.loadComplete_of_error loading error⟩
  | false =>
    cases invalid : (tableOf (beatData beats)).firstInvalid with
    | some p => exact ⟨_, _, _, State.loadComplete_of_invalid loading error invalid⟩
    | none => exact ⟨_, _, _, State.loadComplete_of_valid loading error invalid⟩

end completion

/-- Settles O37: the answer ends the load, by its errors and then by the validity check. -/
theorem coefficientLoadEndsOneOfThreeWays : Obligations.CoefficientLoadEndsOneOfThreeWays := by
  intro beats g k page c a s answers work loading active
  have answered := State.without_changesOnly (.read 260 beats) s
  have loading' : (s.without (.read 260 beats)).banks[k].loading = some c := loading
  have active' : (s.without (.read 260 beats)).cells[c] = some a := active
  refine ⟨(s.without (.read 260 beats)).loadComplete k beats, ?row, ?only, ?idle, fun errors => ?failed,
    fun good => ⟨fun p bad lowest => ?invalid, fun valid => ?done⟩⟩
  case row => exact (State.replyRow_of_answers answers).trans (by rw [work]; rfl)
  case only =>
    obtain ⟨table, code, detail, ends⟩ := State.loadComplete_ends (beats := beats) loading'
    rw [ends]
    exact State.changesOnly_trans (State.changesOnly_mono answered (by simp))
      (State.changesOnly_mono (State.endLoad_settle active' table code detail).1 (by simp))
  case idle =>
    obtain ⟨table, code, detail, ends⟩ := State.loadComplete_ends (beats := beats) loading'
    rw [ends, (State.endLoad_settle active' table code detail).2.1]
  case failed =>
    obtain ⟨-, bank, cell⟩ :=
      State.endLoad_settle (k := k) active' (s.without (.read 260 beats)).banks[k].table .fetchFailed 0
    rw [State.loadComplete_of_error loading' (anyError_iff.2 errors)]
    exact ⟨by rw [bank]; rfl, cell⟩
  case invalid =>
    obtain ⟨-, bank, cell⟩ :=
      State.endLoad_settle (k := k) active' (s.without (.read 260 beats)).banks[k].table .coefInvalid
        (BitVec.ofNat 8 p.val)
    rw [State.loadComplete_of_invalid loading' (anyError_eq_false good) (CoefTable.firstInvalid_eq_some bad lowest)]
    exact ⟨by rw [bank]; rfl, cell⟩
  case done =>
    obtain ⟨-, bank, cell⟩ := State.endLoad_settle (k := k) active' (tableOf (beatData beats)) .done 0
    rw [State.loadComplete_of_valid loading' (anyError_eq_false good) (CoefTable.firstInvalid_eq_none valid)]
    exact ⟨by rw [bank], cell⟩

end Sys2Proof.Machine
end

section
/-! A read of an output's window, beat by beat (R103, R108 to R112): out of RUNNING, on a RUNNING output, and into a
queue that holds other bursts. -/

namespace Sys2Proof.Machine

/-! ### The beats that are answered at once -/

theorem getLast?_filterMap_singleton {α β : Type} (g : α → Option β) (a : α) : ([a].filterMap g).getLast? = g a := by
  cases h : g a <;> simp [h]

/-- The read of a window as its first `n` beats have left it: `src` gives the buffer of each, or none for the fill
colour (R109). -/
def State.readTo (o : OutId) (c : OutputConfig) (b : Burst) (src : Nat → Option (Fin 2)) (n : Nat) (s : State) :
    State :=
  let w := b.addr.toNat - c.windowPage.toNat * 4096
  { s with
    nextSerial := s.nextSerial + 1
    reads := s.reads ++ [⟨s.nextSerial, b.id,
      (List.range n).map (fun i => windowBeat c (s.outputs[o].picture (src i)) w b.size.val i), decide (n = b.len)⟩]
    outputs := s.outputs.set o
      { s.outputs[o] with
        builder :=
          { s.outputs[o].builder with
            queue := if n = b.len then [] else [⟨s.nextSerial, w, b.size, b.len, n⟩]
            lastTouched := ((List.range n).filterMap fun i =>
              if inPicture c (beatStart w b.size.val i) then src i else none).getLast?.or
                s.outputs[o].builder.lastTouched } } }

section beats
variable {o : OutId} {c : OutputConfig} {b : Burst} {src : Nat → Option (Fin 2)} {n : Nat} {s : State}

theorem State.readTo_output : (s.readTo o c b src n).outputs[o] =
    { s.outputs[o] with
      builder :=
        { s.outputs[o].builder with
          queue := if n = b.len then []
            else [⟨s.nextSerial, b.addr.toNat - c.windowPage.toNat * 4096, b.size, b.len, n⟩]
          lastTouched := ((List.range n).filterMap fun i =>
            if inPicture c (beatStart (b.addr.toNat - c.windowPage.toNat * 4096) b.size.val i) then src i
            else none).getLast?.or s.outputs[o].builder.lastTouched } } :=
  vector_set_self ..

theorem State.readTo_noticeHolds (holds : s.noticeHolds) : (s.readTo o c b src n).noticeHolds :=
  State.noticeHolds_congr (State.noticeHolds_setOutput (o := o) (x := (s.readTo o c b src n).outputs[o]) holds
    (by rw [State.readTo_output]) (by rw [State.readTo_output])) (by rw [State.readTo_output]; rfl) rfl rfl rfl

/-- Before its first beat the read waits alone in its queue. -/
theorem State.readTo_zero (some_ : 1 ≤ b.len) : s.readTo o c b src 0 = s.awaiting o c b := by
  have more : ¬ 0 = b.len := by omega
  simp only [State.readTo, State.awaiting, QueuedRead.ofBurst, more, if_false, decide_false, List.range_zero,
    List.map_nil, List.filterMap_nil, List.getLast?_nil, Option.none_or]

variable (holds : s.noticeHolds) (serials : s.serialsHold) (config : s.outputs[o].config = some c)
  (idle : s.outputs[o].builder.run = none)
include holds serials config idle

/-- A beat that is answered at once joins its read. -/
theorem State.readTo_succ (more : n < b.len)
    (once : (s.outputs[o].state ≠ .running ∧ src n = none) ∨ (s.outputs[o].state = .running ∧
      s.outputs[o].atOnce c (beatStart (b.addr.toNat - c.windowPage.toNat * 4096) b.size.val n) (src n))) :
    (s.readTo o c b src n).takeHead o = (s.readTo o c b src (n + 1)).takeHead o := by
  have output := State.readTo_output (o := o) (c := c) (b := b) (src := src) (n := n) (s := s)
  have taken := State.takeHead_of_answered (s := s.readTo o c b src n) (o := o) (c := c) (src := src n)
    (q := ⟨s.nextSerial, b.addr.toNat - c.windowPage.toNat * 4096, b.size, b.len, n⟩) (rest := [])
    (State.readTo_noticeHolds holds) (by rw [output]; exact config)
    (by rw [output]; exact if_neg (Nat.ne_of_lt more)) (by rw [output]; exact idle) more
    (by rw [output]; exact once)
  have picture : (s.readTo o c b src n).outputs[o].picture (src n) = s.outputs[o].picture (src n) := by
    rw [output]
    cases src n <;> rfl
  have older (g : ReadTxn → ReadTxn) : s.reads.map (fun z => if z.serial = s.nextSerial then g z else z) = s.reads :=
    (List.map_congr_left fun z m => if_neg (Nat.ne_of_lt (serials.1 z m))).trans (List.map_id' _)
  rw [taken, picture]
  refine congrArg (State.takeHead o) ?_
  rw [output]
  simp only [State.readTo, State.mk.injEq, true_and, and_true, List.map_append, older, List.map_cons, List.map_nil,
    if_true, List.range_succ, Vector.set_set, List.filterMap_append, List.getLast?_append,
    getLast?_filterMap_singleton, Option.or_assoc]
  rfl

/-- As many beats as are answered at once join the read, and then the next one is taken. -/
theorem State.awaiting_takeHead (some_ : 1 ≤ b.len) : ∀ n, n ≤ b.len →
    (∀ i, i < n → (s.outputs[o].state ≠ .running ∧ src i = none) ∨ (s.outputs[o].state = .running ∧
      s.outputs[o].atOnce c (beatStart (b.addr.toNat - c.windowPage.toNat * 4096) b.size.val i) (src i))) →
    (s.awaiting o c b).takeHead o = (s.readTo o c b src n).takeHead o
  | 0, _, _ => by rw [State.readTo_zero some_]
  | n + 1, fits, once => by
    rw [State.awaiting_takeHead some_ n (Nat.le_of_succ_le fits) fun i below => once i (Nat.lt_succ_of_lt below)]
    exact State.readTo_succ holds serials config idle fits (once n (Nat.lt_succ_self n))

end beats

theorem State.readTo_all_idle {o : OutId} {c : OutputConfig} {b : Burst} {src : Nat → Option (Fin 2)} {s : State} :
    (s.readTo o c b src b.len).takeHead o = s.readTo o c b src b.len :=
  State.takeHead_of_idle (.inl (by rw [State.readTo_output]; exact if_pos rfl))

/-- Settles O25: out of RUNNING every beat is answered at once with the fill colour. -/
theorem idleWindowReadsTheFillColour : Obligations.IdleWindowReadsTheFillColour := by
  intro b o c s room holds serials read incr some_ window config stopped queue idle
  rw [exec_outputRead_of_open room read incr window, State.outputRead_of_empty holds config queue,
    State.awaiting_takeHead (src := fun _ => none) holds serials config idle some_ b.len (Nat.le_refl _)
      fun _ _ => .inl ⟨stopped, rfl⟩, State.readTo_all_idle]
  have same : s.outputs.set o { s.outputs[o] with builder := { s.outputs[o].builder with queue := [] } } = s.outputs := by
    rw [← queue]
    exact vector_set_same s.outputs o
  have read : s.readTo o c b (fun _ => none) b.len = { s with
      nextSerial := s.nextSerial + 1
      reads := s.reads ++ [⟨s.nextSerial, b.id,
        (List.range b.len).map (windowBeat c (colourByte s.outputs[o].modes.fill)
          (b.addr.toNat - c.windowPage.toNat * 4096) b.size.val), true⟩] } := by
    simp only [State.readTo, if_true, ite_self, List.filterMap_none, List.getLast?_nil, Option.none_or, decide_true, same]
    rfl
  rw [read]

/-- A read behind other bursts joins the queue and changes nothing else (R108). -/
theorem State.outputRead_of_queued {b : Burst} {o : OutId} {c : OutputConfig} {s : State} (holds : s.noticeHolds)
    (config : s.outputs[o].config = some c) (queue : s.outputs[o].builder.queue ≠ []) :
    s.outputRead o b =
      { s with
        nextSerial := s.nextSerial + 1
        reads := s.reads ++ [⟨s.nextSerial, b.id, [], false⟩]
        outputs := s.outputs.set o
          { s.outputs[o] with
            builder :=
              { s.outputs[o].builder with
                queue := s.outputs[o].builder.queue ++ [QueuedRead.ofBurst c s.nextSerial b] } } } := by
  have opened : (s.openRead b [] false).noticeHolds := State.noticeHolds_congr holds rfl rfl rfl rfl
  have waits : s.outputs[o].builder.queue.isEmpty = false := by simpa using queue
  have joined : s.outputRead o b = (s.openRead b [] false).modifyBuilder o fun lb =>
      { lb with queue := lb.queue ++ [QueuedRead.ofBurst c s.nextSerial b] } := by
    simp only [State.outputRead, config, waits, Bool.false_eq_true, if_false]
    rfl
  rw [joined, State.modifyBuilder_of_noticeHolds opened]
  rfl

/-- Settles O27: the read joins its queue; on a RUNNING output its beats are answered until one waits, or the first
starts a slate run. -/
theorem readsOfAnOutputWindow : Obligations.ReadsOfAnOutputWindow := by
  refine ⟨?queued, ?taken, ?answered, ?slate⟩
  case queued =>
    intro b o c s room holds read incr window config queue
    rw [exec_outputRead_of_open room read incr window, State.outputRead_of_queued holds config queue]
    rfl
  case taken =>
    intro b o c s room holds read incr window config queue
    rw [exec_outputRead_of_open room read incr window, State.outputRead_of_empty holds config queue]
    rfl
  case answered =>
    rintro b o c w n src s room holds serials read incr some_ window config running queue idle rfl fits once waits
    rw [exec_outputRead_of_open room read incr window, State.outputRead_of_empty holds config queue,
      State.awaiting_takeHead holds serials config idle some_ n fits fun i below => .inr ⟨running, once i below⟩]
    have output := State.readTo_output (o := o) (c := c) (b := b) (src := src) (n := n) (s := s)
    have stays : (s.readTo o c b src n).takeHead o = s.readTo o c b src n := by
      rcases Nat.eq_or_lt_of_le fits with rfl | more
      · exact State.readTo_all_idle
      · obtain ⟨inside, d, x, building, held, kind, lacks⟩ := waits more
        refine State.takeHead_waits (c := c) (rest := []) (x := x)
          (q := ⟨s.nextSerial, b.addr.toNat - c.windowPage.toNat * 4096, b.size, b.len, n⟩) ?_ ?_ ?_ ?_ inside ?_ kind
          ?_ ?_
        all_goals rw [output]
        · exact config
        · exact if_neg (Nat.ne_of_lt more)
        · exact idle
        · exact running
        · exact held
        · exact lacks
        · show s.outputs[o].builder.build ≠ none
          rw [building]
          exact Option.some_ne_none d
    rw [stays]
    rfl
  case slate =>
    rintro b o c x page w q s room holds read incr some_ window config running queue idle rfl inside held kind slate rfl
    have output := s.awaiting_output o c b
    refine ⟨(s.awaiting o c b).takeHead o, ?_, ?_⟩
    · rw [exec_outputRead_of_open room read incr window, State.outputRead_of_empty holds config queue]
    · have config' : (s.awaiting o c b).outputs[o].config = some c := by rw [output]; exact config
      have queue' : (s.awaiting o c b).outputs[o].builder.queue = [QueuedRead.ofBurst c s.nextSerial b] := by
        rw [output]
      rw [State.takeHead_of_slate queue' (by rw [output]; exact idle) (Output.headCase_of_slate (x := x)
        (q := QueuedRead.ofBurst c s.nextSerial b) config' inside (by rw [output]; exact running)
        (by rw [output]; exact held) kind (by rw [output]; exact slate))]
      exact State.startRun_startsRun (State.awaiting_noticeHolds holds o c b) config' queue' some_

end Sys2Proof.Machine
end

section
/-! The answers to a slate run (R107, R108, R111): the bytes that its beats show, the beats in order, and the last
answer. -/

namespace Sys2Proof.Machine

/-! ### The bytes of a run's beats (R109, R111) -/

theorem SlateRun.beat_eq (r : SlateRun) (fill : Colour) (x n : Nat) :
    r.beat fill x n = (List.range n).map fun k => r.shownAt fill (x + k) := by
  refine List.map_congr_left fun k _ => ?_
  unfold SlateRun.shownAt
  split
  · rfl
  · rw [← List.head?_filter]
    cases pages : r.reads.filter fun p => decide (p.offset / 4096 = (x + k) / 4096) with
    | nil => exact fillByte_eq_colourByte ..
    | cons p rest =>
      obtain ⟨offset, len, answer⟩ := p
      rcases answer with _ | _ | bytes
      · exact fillByte_eq_colourByte ..
      · exact fillByte_eq_colourByte ..
      · rfl

/-- Beat `j` of a run in flight at the head burst `q`, answered OKAY. -/
def SlateRun.answer (r : SlateRun) (fill : Colour) (q : QueuedRead) (j : Nat) : ReadBeat :=
  ⟨.okay, (List.range (q.bytes (q.done + j))).map fun k => r.shownAt fill (q.start (q.done + j) + k)⟩

/-- What `n` answered beats make of an accepted read. -/
def SlateRun.joined (r : SlateRun) (fill : Colour) (q : QueuedRead) (n : Nat) (x : ReadTxn) : ReadTxn :=
  if x.serial = q.serial then
    { x with
      ready := decide (q.done + n = q.len)
      beats := x.beats ++ (List.range n).map (r.answer fill q) }
  else x

/-- What is left of a queue when `n` beats of its head burst have been answered. -/
def QueuedRead.after (q : QueuedRead) (rest : List QueuedRead) (n : Nat) : List QueuedRead :=
  if q.done + n = q.len then rest else { q with done := q.done + n } :: rest

theorem SlateRun.joined_succ (r : SlateRun) (fill : Colour) (q : QueuedRead) (n : Nat) (x : ReadTxn) :
    r.joined fill { q with done := q.done + 1 } (n + 1) (r.joined fill q 1 x) = r.joined fill q (n + 1 + 1) x := by
  have next (j : Nat) : r.answer fill { q with done := q.done + 1 } j = r.answer fill q (j + 1) := by
    simp only [SlateRun.answer, Nat.add_assoc, Nat.add_comm 1 j]
    rfl
  have count : q.done + 1 + (n + 1) = q.done + (n + 1 + 1) := by omega
  unfold SlateRun.joined
  by_cases own : x.serial = q.serial
  · simp only [own, if_true, count, List.append_assoc, List.range_succ_eq_map (n := n + 1), List.map_cons, List.map_map,
      Function.comp_def, Nat.succ_eq_add_one, funext next]
    rfl
  · simp only [own, if_false]

theorem QueuedRead.after_succ (q : QueuedRead) (rest : List QueuedRead) (n : Nat) :
    QueuedRead.after { q with done := q.done + 1 } rest n = q.after rest (n + 1) := by
  have count : q.done + 1 + n = q.done + (n + 1) := by omega
  simp only [QueuedRead.after, count]

section answers
variable {o : OutId} {r : SlateRun} {rest : List QueuedRead}

/-- The first `n` beats of the run are answered in order (R111). -/
theorem State.answerRun_eq : ∀ (n : Nat) (q : QueuedRead) (s : State), s.noticeHolds →
    s.outputs[o].builder.queue = q :: rest → q.done + (n + 1) ≤ q.len →
    State.answerRun (n + 1) o r s =
      { s with
        reads := s.reads.map (r.joined s.outputs[o].modes.fill q (n + 1))
        outputs := s.outputs.set o
          { s.outputs[o] with builder := { s.outputs[o].builder with queue := q.after rest (n + 1) } } }
  | n, q, s, holds, queue, fits => by
    have head : State.answerRun (n + 1) o r s = State.answerRun n o r
        { s with
          reads := s.reads.map (r.joined s.outputs[o].modes.fill q 1)
          outputs := s.outputs.set o
            { s.outputs[o] with builder := { s.outputs[o].builder with queue := q.after rest 1 } } } := by
      simp only [State.answerRun, queue]
      rw [State.answerHead_eq queue holds (by omega), SlateRun.beat_eq]
      rfl
    rw [head]
    cases n with
    | zero => rfl
    | succ n =>
      have more : q.after rest 1 = { q with done := q.done + 1 } :: rest := if_neg (by omega)
      have written : State.noticeHolds { s with
          reads := s.reads.map (r.joined s.outputs[o].modes.fill q 1)
          outputs := s.outputs.set o
            { s.outputs[o] with builder := { s.outputs[o].builder with queue := q.after rest 1 } } } :=
        State.noticeHolds_congr (State.noticeHolds_setOutput (o := o) (x := { s.outputs[o] with
          builder := { s.outputs[o].builder with queue := q.after rest 1 } }) holds rfl rfl) rfl rfl rfl rfl
      rw [State.answerRun_eq n { q with done := q.done + 1 } _ written
        (by simp only [vector_set_self]; exact more) (by dsimp only; omega)]
      simp only [vector_set_self, Vector.set_set, List.map_map, QueuedRead.after_succ, Function.comp_def,
        SlateRun.joined_succ]

/-- The beats of the run are answered and the run is over. -/
theorem State.endRun_eq {n : Nat} {q : QueuedRead} {s : State} (holds : s.noticeHolds)
    (queue : s.outputs[o].builder.queue = q :: rest) (some_ : 1 ≤ n) (fits : q.done + n ≤ q.len) :
    ((State.answerRun n o r s).modifyBuilder o fun lb => { lb with run := none }) =
      { s with
        reads := s.reads.map (r.joined s.outputs[o].modes.fill q n)
        outputs := s.outputs.set o
          { s.outputs[o] with
            builder := { s.outputs[o].builder with run := none, queue := q.after rest n } } } := by
  obtain ⟨n, rfl⟩ := Nat.exists_eq_add_of_le' some_
  have answered := State.answerRun_eq (o := o) (r := r) n q s holds queue fits
  have written : (State.answerRun (n + 1) o r s).noticeHolds := by
    rw [answered]
    exact State.noticeHolds_congr (State.noticeHolds_setOutput (o := o) (x := { s.outputs[o] with
      builder := { s.outputs[o].builder with queue := q.after rest (n + 1) } }) holds rfl rfl) rfl rfl rfl rfl
  rw [State.modifyBuilder_of_noticeHolds written, answered]
  simp only [vector_set_self, Vector.set_set]

end answers

/-! ### An answer to a run's read -/

/-- A run with one more read answered (R111). -/
def SlateRun.received (r : SlateRun) (i : Nat) (beats : List ReadBeat) : SlateRun :=
  { r with reads := r.reads.modify i fun p =>
    { p with answer := some (if anyError beats then none else some (beatData beats)) } }

/-- Whether a read of a run failed. -/
def SlateRun.failed (r : SlateRun) : Bool := r.reads.any fun p => p.answer = some none

theorem SlateRun.failed_iff {r : SlateRun} : r.failed = true ↔ ∃ p ∈ r.reads, p.answer = some none := by
  simp [SlateRun.failed]

/-- A failed run counts one fetch error, up to 65,535, and sets FETCH_ERROR (R107, R111). -/
theorem Output.ite_fetchFailed (failed : Prop) [Decidable failed] (x : Output) :
    (if failed then x.fetchFailed else x) =
      { x with
        report :=
          { x.report with
            fetchErrors := if failed ∧ x.report.fetchErrors < 65535 then x.report.fetchErrors + 1
              else x.report.fetchErrors }
        word := if failed then x.word ||| 0x0010 else x.word } := by
  by_cases is : failed
  · simp only [is, if_true, true_and]
    rfl
  · simp only [is, if_false, false_and]

section answer
variable {o : OutId} {run : SlateRun} {i : Nat} {beats : List ReadBeat} {s : State}
  (flight : s.outputs[o].builder.run = some run)
include flight

theorem State.slateAnswer_of_waiting (waits : ∃ p ∈ (run.received i beats).reads, p.answer = none) :
    s.slateAnswer o i beats = s.modifyBuilder o fun lb => { lb with run := some (run.received i beats) } := by
  have some_ : ((run.received i beats).reads.all fun p => p.answer.isSome) = false := by
    obtain ⟨p, m, none_⟩ := waits
    exact List.all_eq_false.2 ⟨p, m, by simp [none_]⟩
  unfold State.slateAnswer
  simp only [flight]
  exact if_neg (by rw [SlateRun.received] at some_; simp [some_])

theorem State.slateAnswer_of_last (last : ∀ p ∈ (run.received i beats).reads, p.answer ≠ none) :
    s.slateAnswer o i beats = State.takeHead o (State.modifyBuilder o (fun lb => { lb with run := none })
      (State.answerRun run.beats o (run.received i beats)
        (s.modifyOutput o fun x => if (run.received i beats).failed then x.fetchFailed else x))) := by
  have all : ((run.received i beats).reads.all fun p => p.answer.isSome) = true :=
    List.all_eq_true.2 fun p m => Option.isSome_iff_ne_none.2 (last p m)
  unfold State.slateAnswer
  simp only [flight]
  exact if_pos all

end answer

/-- Settles O39: an answer is kept, and the last one is a write of the output that counts a failure and then the beats
of the run in order. -/
theorem slateAnswersServeTheRun : Obligations.SlateAnswersServeTheRun := by
  rintro o beats g i addr len run done q rest s answers work holds flight queue - rfl
  obtain ⟨r, reply⟩ : ∃ r, r = Reply.read (BitVec.ofNat 9 (256 + o.val)) beats := ⟨_, rfl⟩
  rw [← reply] at answers ⊢
  have gone := State.without_changesOnly r s
  have holds' : (s.without r).noticeHolds := State.noticeHolds_congr holds rfl rfl rfl rfl
  have flight' : (s.without r).outputs[o].builder.run = some run := flight
  have row : exec (.slateReadResponse o beats) s = .next ((s.without r).slateAnswer o i beats).flush := by
    refine (State.replyRow_of_answers (r := .read (fetchId o) beats) (reply ▸ answers)).trans ?_
    rw [work, reply]
    rfl
  refine ⟨fun waits => ?_, fun last some_ fits => ?_⟩
  · rw [row, State.slateAnswer_of_waiting flight' waits, State.modifyBuilder_of_noticeHolds holds']
    rfl
  rw [row, State.slateAnswer_of_last flight' last]
  generalize counted : ((s.without r).modifyOutput o fun x =>
    if (run.received i beats).failed then x.fetchFailed else x) = v
  have output : v.outputs[o] = if ∃ p ∈ (run.received i beats).reads, p.answer = some none then
      s.outputs[o].fetchFailed else s.outputs[o] := by
    rw [← counted, State.modifyOutput_outputs, vector_set_self]
    exact if_congr SlateRun.failed_iff rfl rfl
  have builder : v.outputs[o].builder = s.outputs[o].builder := by rw [output]; split <;> rfl
  have modes : v.outputs[o].modes = s.outputs[o].modes := by rw [output]; split <;> rfl
  have changed : (s.without r).changesOnly [.output o, .class3, .deviceWord] v :=
    counted ▸ State.modifyOutput_changesOnly o _ _
  have marked : (s.without r).onlyMarks [.output o] v := counted ▸ State.modifyOutput_onlyMarks _ _ (by simp)
  have notice : v.noticeHolds := counted ▸ State.putOutput_noticeHolds ..
  have reads : v.reads = s.reads := changed .reads (by simp)
  have ended := State.endRun_eq (o := o) (r := run.received i beats) (rest := rest) notice (builder ▸ queue) some_ fits
  refine ⟨_, rfl, ?only, ?marks, State.putOutput_noticeHolds .., ?granted, ?output, ?reads⟩
  all_goals rw [ended]
  case only =>
    refine State.changesOnly_trans (State.changesOnly_mono gone (by simp))
      (State.changesOnly_trans (State.changesOnly_mono changed (by simp)) fun p named => ?_)
    cases p <;> simp_all [State.same, State.ref, vector_set_other]
  case marks =>
    exact State.onlyMarks_trans (t := v) marked (State.onlyMarks_of_class3 rfl)
  case granted => exact changed .granted (by simp)
  case output =>
    rw [vector_set_self, output, Output.ite_fetchFailed]
    rfl
  case reads =>
    rw [modes]
    exact congrArg (List.map _) reads

end Sys2Proof.Machine
end

section
/-! The answer to a fill burst (R124): its entry, and the concealment lookups of the builds that it tells (R104, R105,
R115). -/

namespace Sys2Proof.Machine

/-! ### Entries in use and entries to spare (R121 to R123) -/

/-- The entries that are in use stay, but for a use count that may rise (R122, R123). -/
def Cache.Keeps (c d : Cache) : Prop :=
  ∀ i : EntryId, c.entries[i].state ≠ .free → 0 < c.entries[i].uses →
    ∃ n, c.entries[i].uses ≤ n ∧ d.entries[i] = { c.entries[i] with uses := n }

theorem Cache.Keeps.refl (c : Cache) : c.Keeps c := fun _ _ _ => ⟨_, Nat.le_refl _, rfl⟩

theorem Cache.Keeps.trans {c d e : Cache} (h : c.Keeps d) (k : d.Keeps e) : c.Keeps e := fun i live used => by
  obtain ⟨n, more, same⟩ := h i live used
  obtain ⟨m, more', same'⟩ := k i (by rw [same]; exact live) (by rw [same]; exact Nat.lt_of_lt_of_le used more)
  rw [same] at more' same'
  exact ⟨m, Nat.le_trans more more', same'⟩

/-- How many entries a miss can take: the FREE ones, and the VALID ones not in use (R123). -/
def Cache.spare (c : Cache) : Nat := allEntries.countP fun i =>
  c.entries[i].state = .free ∨ (c.entries[i].state = .valid ∧ c.entries[i].uses = 0 ∧ i ∈ c.order)

theorem Cache.spare_put (i : EntryId) (e : CacheEntry) (c : Cache) :
    c.spare ≤ ((c.put i e).touch i).spare + 1 := by
  refine countP_le_succ (i := i) (fun x other open_ => ?_) _ (List.nodup_finRange 64)
  have same : ((c.put i e).touch i).entries[x] = c.entries[x] := vector_set_other _ _ _ _ other
  have order : x ∈ c.order → x ∈ ((c.put i e).touch i).order := fun m => by simp [Cache.touch, Cache.put, m, other]
  rw [same]
  simp only [decide_eq_true_eq] at open_ ⊢
  exact open_.imp_right fun ⟨valid, unused, m⟩ => ⟨valid, unused, order m⟩

theorem Cache.victim_spec {c : Cache} {i : EntryId} (victim : c.victim = some i) :
    c.entries[i].state = .free ∨ (c.entries[i].state = .valid ∧ c.entries[i].uses = 0) := by
  rcases Option.or_eq_some_iff.1 victim with free | ⟨-, unused⟩
  · exact .inl (by simpa using List.find?_some free)
  · exact .inr (by simpa using List.find?_some unused)

theorem Cache.victim_of_spare {c : Cache} (open_ : 0 < c.spare) : ∃ i, c.victim = some i := by
  obtain ⟨i, m, spare⟩ := List.countP_pos_iff.1 open_
  simp only [decide_eq_true_eq] at spare
  refine Option.isSome_iff_exists.1 ?_
  rw [Cache.victim, Option.isSome_or, Bool.or_eq_true]
  rcases spare with free | ⟨valid, unused, order⟩
  · exact .inl (List.find?_isSome.2 ⟨i, m, by simpa using free⟩)
  · exact .inr (List.find?_isSome.2 ⟨i, order, by simpa using ⟨valid, unused⟩⟩)

theorem Cache.keeps_hit (i : EntryId) (c : Cache) : c.Keeps (c.hit i) := fun x _ _ => by
  by_cases same : x = i
  · subst same
    exact ⟨c.entries[x].uses + 1, Nat.le_succ _, vector_set_self ..⟩
  · exact ⟨_, Nat.le_refl _, vector_set_other _ _ _ _ same⟩

theorem Cache.keeps_fetch {c : Cache} {i : EntryId} (victim : c.victim = some i) (k : CacheKey) (o : OutId) (n : Nat) :
    c.Keeps (c.fetch k o n i) := fun x live used => by
  have other : x ≠ i := by
    rintro rfl
    rcases Cache.victim_spec victim with free | ⟨-, unused⟩
    · exact live free
    · omega
  exact ⟨_, Nat.le_refl _, vector_set_other _ _ _ _ other⟩

/-! ### Lookups with entries to spare -/

/-- The lookups of keys `ks` for output `o`, from `s` to `r.1` with the entries `r.2`: every key is held, in order. -/
structure State.LooksUp (o : OutId) (ks : List CacheKey) (s : State) (r : State × List (CacheKey × EntryId)) : Prop where
  keeps : s.cache.Keeps r.1.cache
  spare : s.cache.spare ≤ r.1.cache.spare + ks.length
  held : r.2.map (·.1) = ks
  fills : ∃ fills : List Fetch, r.1.class1[o] = s.class1[o] ++ fills

theorem State.lookup_looksUp {o : OutId} {b : Build} {k : CacheKey} {s : State} (open_ : 0 < s.cache.spare) :
    s.LooksUp o [k] (s.lookup o b k) := by
  unfold State.lookup Cache.look
  cases found : s.cache.find k with
  | some i => exact ⟨Cache.keeps_hit i s.cache, Cache.spare_put .., rfl, [], (List.append_nil _).symm⟩
  | none =>
    obtain ⟨i, victim⟩ := Cache.victim_of_spare open_
    rw [victim]
    exact ⟨Cache.keeps_fetch victim k o _, Cache.spare_put .., rfl, _, vector_set_self ..⟩

theorem State.lookupAll_looksUp {o : OutId} {b : Build} : ∀ (ks : List CacheKey) (s : State),
    ks.length ≤ s.cache.spare → s.LooksUp o ks (s.lookupAll o b ks)
  | [], s, _ => ⟨.refl _, Nat.le_refl _, rfl, [], (List.append_nil _).symm⟩
  | k :: ks, s, open_ => by
    obtain ⟨keeps, spare, held, fills, class1⟩ :=
      State.lookup_looksUp (o := o) (b := b) (k := k) (s := s) (Nat.lt_of_lt_of_le (by simp) open_)
    simp only [List.length_cons, List.length_nil] at open_ spare
    obtain ⟨keeps', spare', held', fills', class1'⟩ :=
      State.lookupAll_looksUp (o := o) (b := b) ks (s.lookup o b k).1 (by omega)
    refine ⟨keeps.trans keeps', ?_, ?_, fills ++ fills', ?_⟩
    · simp only [State.lookupAll, List.length_cons]
      omega
    · simp only [State.lookupAll, List.map_append, held, held']
      rfl
    · simp only [State.lookupAll, class1', class1, List.append_assoc]

/-! ### The keys that a build is called to look up (R104, R105, R115) -/

/-- The concealment keys of a build whose entries have all settled. -/
def State.called (d : Build) (s : State) : List CacheKey := if s.settled d then s.missingConceal d else []

theorem Build.length_concealKeys_le (d : Build) (fa fb : Bool) : (d.concealKeys fa fb).length ≤ 4 := by
  have four (r : FixedRecord) : (distinct (d.taps r)).length ≤ 4 :=
    (length_distinct_le _).trans (by simp [Build.taps])
  rw [Build.concealKeys_eq]
  repeat' split
  · exact four _
  · exact four _
  · exact Nat.zero_le _
  · exact Nat.zero_le _

theorem State.length_called_le (d : Build) (s : State) : (s.called d).length ≤ 4 := by
  unfold State.called
  split
  · exact (List.length_filter_le _ _).trans (d.length_concealKeys_le _ _)
  · exact Nat.zero_le _

theorem Build.mem_holds_of_entryOf {d : Build} {k : CacheKey} {e : EntryId} (held : d.entryOf k = some e) :
    ∃ h ∈ d.holds, h.2 = e := by
  obtain ⟨h, found, rfl⟩ := Option.map_eq_some_iff.1 held
  exact ⟨h, List.mem_of_find?_eq_some found, rfl⟩

/-- What a build is called for follows from the states of the entries that it holds. -/
theorem State.called_congr {d : Build} {s t : State}
    (states : ∀ h ∈ d.holds, t.cache.entries[h.2].state = s.cache.entries[h.2].state) : t.called d = s.called d := by
  have settled : t.settled d = s.settled d := by
    rw [Bool.eq_iff_iff, State.settled_iff, State.settled_iff]
    exact forall₂_congr fun h m => by rw [states h m]
  have faulted (r : FixedRecord) : t.faulted d r = s.faulted d r := by
    rw [Bool.eq_iff_iff, State.faulted_iff, State.faulted_iff]
    refine exists₂_congr fun i e => and_congr_right fun _ => and_congr_right fun held => ?_
    obtain ⟨h, m, rfl⟩ := Build.mem_holds_of_entryOf held
    rw [states h m]
  simp only [State.called, State.missingConceal, settled, faulted]

/-! ### A build that is told of a settled entry (R115, R124) -/

/-- What the settling of entry `e` makes of an output `x` with the class 1 queue `fs`: a build that holds the entry
looks up the keys `missing` calls for. -/
def Output.Hears (e : EntryId) (missing : Build → List CacheKey) (x : Output) (fs : List Fetch) (y : Output)
    (gs : List Fetch) : Prop :=
  (x.builder.build = none → y = x ∧ gs = fs) ∧
    ∀ d, x.builder.build = some d →
      (e ∉ d.holds.map (·.2) → y = x ∧ gs = fs) ∧
      (e ∈ d.holds.map (·.2) → ∃ (more : List (CacheKey × EntryId)) (fills : List Fetch),
        more.map (·.1) = missing d ∧ gs = fs ++ fills ∧ (missing d = [] → fills = []) ∧
          y = { x with builder := { x.builder with build := some { d with holds := d.holds ++ more } } })

/-- Output `o` is told of the settled entry `e`: a build that holds it goes on. -/
def State.tell (e : EntryId) (s : State) (o : OutId) : State :=
  match s.outputs[o].builder.build with
  | some b => if b.holds.any (fun h => h.2 = e) then s.conceal o else s
  | none => s

theorem State.fillAnswer_eq (e : EntryId) (beats : List ReadBeat) (s : State) : s.fillAnswer e beats =
    if (s.cache.put e (s.cache.entries[e].answered beats)).entries[e].state = .fetching then
      { s with cache := s.cache.put e (s.cache.entries[e].answered beats) }
    else allOutputs.foldl (State.tell e) { s with cache := s.cache.put e (s.cache.entries[e].answered beats) } := rfl

section conceal
variable {o : OutId} {d : Build} {s : State} (build : s.outputs[o].builder.build = some d)
include build

theorem State.conceal_of_not_called (nothing : s.called d = []) : s.conceal o = s := by
  unfold State.called at nothing
  simp only [State.conceal, build]
  refine if_neg fun due => ?_
  rw [Bool.and_eq_true] at due
  rw [if_pos due.1] at nothing
  simp [nothing] at due

theorem State.conceal_of_called (called : s.called d ≠ []) :
    s.conceal o = (s.lookupAll o d (s.called d)).1.modifyBuilder o fun lb =>
      { lb with build := some { d with holds := d.holds ++ (s.lookupAll o d (s.called d)).2 } } := by
  unfold State.called at called ⊢
  split at called
  · next settled =>
    simp only [State.conceal, build, settled, if_true]
    exact if_pos (by simpa using called)
  · exact absurd rfl called

/-- A build that goes on holds the entries of the keys that it is called for, behind its own. -/
theorem State.conceal_spec (holds : s.noticeHolds) (open_ : 4 ≤ s.cache.spare) :
    s.changesOnly [.output o, .cache, .class1 o] (s.conceal o) ∧ (s.conceal o).noticeHolds ∧
      s.cache.Keeps (s.conceal o).cache ∧ s.cache.spare ≤ (s.conceal o).cache.spare + 4 ∧
      ∃ (more : List (CacheKey × EntryId)) (fills : List Fetch),
        more.map (·.1) = s.called d ∧ (s.conceal o).class1[o] = s.class1[o] ++ fills ∧
          (s.called d = [] → fills = []) ∧ (s.conceal o).outputs[o] =
            { s.outputs[o] with
              builder := { s.outputs[o].builder with build := some { d with holds := d.holds ++ more } } } := by
  by_cases nothing : s.called d = []
  · rw [State.conceal_of_not_called build nothing]
    refine ⟨s.changesOnly_refl _, holds, .refl _, Nat.le_add_right _ _, [], [], nothing.symm,
      (List.append_nil _).symm, fun _ => rfl, ?_⟩
    rw [List.append_nil, ← build]
  · rw [State.conceal_of_called build nothing]
    have few := s.length_called_le d
    obtain ⟨keeps, spare, held, fills, class1⟩ :=
      State.lookupAll_looksUp (o := o) (b := d) (s.called d) s (few.trans open_)
    have only := State.lookupAll_changesOnly o d (s.called d) s
    have quiet : (s.lookupAll o d (s.called d)).1.noticeHolds :=
      State.noticeHolds_of_changesOnly holds only (by simp) (by simp) (by simp) (by simp)
    have same : (s.lookupAll o d (s.called d)).1.outputs[o] = s.outputs[o] := only (.output o) (by simp)
    refine ⟨?_, State.putOutput_noticeHolds .., ?_, ?_, (s.lookupAll o d (s.called d)).2, fills, held, ?_,
      fun none_ => absurd none_ nothing, ?_⟩
    · exact State.changesOnly_trans (State.changesOnly_mono only (by simp))
        (State.changesOnly_mono (State.modifyOutput_of_unshown_changesOnly quiet rfl) (by simp))
    · rw [State.modifyBuilder_cache]
      exact keeps
    · rw [State.modifyBuilder_cache]
      omega
    · rw [State.modifyBuilder_class1]
      exact class1
    · rw [State.modifyBuilder_outputs, vector_set_self, same]

end conceal

section tell
variable {e : EntryId} {missing : Build → List CacheKey} {o : OutId} {s : State}

theorem State.tell_of_not_held
    (apart : ∀ d, s.outputs[o].builder.build = some d → e ∉ d.holds.map (·.2)) : s.tell e o = s := by
  unfold State.tell
  split
  · next d build => exact if_neg (by simpa using apart d build)
  · rfl

theorem State.tell_of_held {d : Build} (build : s.outputs[o].builder.build = some d)
    (holder : e ∈ d.holds.map (·.2)) : s.tell e o = s.conceal o := by
  simp only [State.tell, build]
  exact if_pos (by simpa using holder)

/-- Where no key is called for, nothing happens. -/
theorem State.tell_of_not_called
    (nothing : ∀ d, s.outputs[o].builder.build = some d → e ∈ d.holds.map (·.2) → s.called d = []) :
    s.tell e o = s := by
  cases build : s.outputs[o].builder.build with
  | none => exact State.tell_of_not_held (by simp [build, -Fin.getElem_fin])
  | some d =>
    by_cases holder : e ∈ d.holds.map (·.2)
    · rw [State.tell_of_held build holder, State.conceal_of_not_called build (nothing d build holder)]
    · refine State.tell_of_not_held fun f other => ?_
      obtain rfl : d = f := Option.some.inj (build.symm.trans other)
      exact holder

/-- An output that is told changes as `Output.Hears` says, and nothing else but the cache and its class 1 queue does. -/
theorem State.tell_spec (holds : s.noticeHolds) (open_ : 4 ≤ s.cache.spare)
    (calls : ∀ d, s.outputs[o].builder.build = some d → missing d = s.called d) :
    s.changesOnly [.output o, .cache, .class1 o] (s.tell e o) ∧ (s.tell e o).noticeHolds ∧
      s.cache.Keeps (s.tell e o).cache ∧ s.cache.spare ≤ (s.tell e o).cache.spare + 4 ∧
      s.outputs[o].Hears e missing s.class1[o] (s.tell e o).outputs[o] (s.tell e o).class1[o] := by
  by_cases holder : ∃ d, s.outputs[o].builder.build = some d ∧ e ∈ d.holds.map (·.2)
  · obtain ⟨d, build, holder⟩ := holder
    obtain ⟨only, notice, keeps, spare, goesOn⟩ := State.conceal_spec build holds open_
    rw [State.tell_of_held build holder]
    refine ⟨only, notice, keeps, spare, fun none_ => ?_, fun f other => ?_⟩
    · rw [build] at none_
      cases none_
    · obtain rfl : d = f := Option.some.inj (build.symm.trans other)
      rw [calls d build]
      exact ⟨fun apart => absurd holder apart, fun _ => goesOn⟩
  · have apart : ∀ d, s.outputs[o].builder.build = some d → e ∉ d.holds.map (·.2) := fun d build m =>
      holder ⟨d, build, m⟩
    rw [State.tell_of_not_held apart]
    exact ⟨s.changesOnly_refl _, holds, .refl _, Nat.le_add_right _ _, fun _ => ⟨rfl, rfl⟩, fun d build =>
      ⟨fun _ => ⟨rfl, rfl⟩, fun m => absurd m (apart d build)⟩⟩

end tell

/-! ### The outputs told in turn (log entry 25) -/

/-- The pieces that the concealment lookups of the four outputs change. -/
def fillParts : List Part := [.cache, .class1 0, .class1 1, .class1 2, .class1 3] ++ outputParts

/-- The outputs `ps` have been told of the settled entry `e`, and the others wait. -/
structure State.Told (e : EntryId) (missing : Build → List CacheKey) (ps : List OutId) (s t : State) : Prop where
  only : s.changesOnly fillParts t
  notice : t.noticeHolds
  keeps : s.cache.Keeps t.cache
  spare : s.cache.spare ≤ t.cache.spare + 4 * ps.length
  told : ∀ p ∈ ps, s.outputs[p].Hears e missing s.class1[p] t.outputs[p] t.class1[p]
  waits : ∀ p, p ∉ ps → t.outputs[p] = s.outputs[p] ∧ t.class1[p] = s.class1[p]

section turns
variable {e : EntryId} {missing : Build → List CacheKey} {s t : State} (calls : ∀ d, missing d = s.called d)
  (used : ∀ (p : OutId) (d : Build), s.outputs[p].builder.build = some d → ∀ h ∈ d.holds,
    s.cache.entries[h.2].state ≠ .free ∧ 0 < s.cache.entries[h.2].uses)
  (open_ : 16 ≤ s.cache.spare)
include calls used open_

/-- The next output is told: what its build is called for is what it was before the turns of the others, since the
entries that it holds are in use. -/
theorem State.Told.next {ps : List OutId} {o : OutId} (h : s.Told e missing ps t) (fresh : o ∉ ps)
    (few : ps.length < 4) : s.Told e missing (ps ++ [o]) (t.tell e o) := by
  obtain ⟨output, class1⟩ := h.waits o fresh
  have same (d : Build) (build : t.outputs[o].builder.build = some d) : missing d = t.called d := by
    rw [calls d]
    refine (State.called_congr fun i m => ?_).symm
    obtain ⟨live, inUse⟩ := used o d (output ▸ build) i m
    obtain ⟨n, -, kept⟩ := h.keeps i.2 live inUse
    rw [kept]
  have room := h.spare
  obtain ⟨only, notice, keeps, spare, hears⟩ := State.tell_spec (e := e) h.notice (by omega) same
  have still (p : OutId) (other : p ≠ o) :
      (t.tell e o).outputs[p] = t.outputs[p] ∧ (t.tell e o).class1[p] = t.class1[p] :=
    ⟨only (.output p) (by simp [other]), only (.class1 p) (by simp [other])⟩
  refine ⟨State.changesOnly_trans h.only (State.changesOnly_mono only ?_), notice, h.keeps.trans keeps, ?_,
    fun p m => ?_, fun p m => ?_⟩
  · fin_cases o <;> simp [fillParts, outputParts]
  · simp only [List.length_append, List.length_cons, List.length_nil]
    omega
  · rcases List.mem_append.1 m with m | m
    · obtain ⟨kept, kept'⟩ := still p fun e => fresh (e ▸ m)
      rw [kept, kept']
      exact h.told p m
    · obtain rfl := List.mem_singleton.1 m
      rw [output, class1] at hears
      exact hears
  · simp only [List.mem_append, List.mem_singleton, not_or] at m
    obtain ⟨kept, kept'⟩ := still p m.2
    rw [kept, kept']
    exact h.waits p m.1

theorem State.Told.foldl : ∀ (os ps : List OutId) (t : State), s.Told e missing ps t → (ps ++ os).Nodup →
    (ps ++ os).length ≤ 4 → s.Told e missing (ps ++ os) (os.foldl (State.tell e) t)
  | [], ps, t, h, _, _ => by simpa using h
  | o :: os, ps, t, h, nodup, few => by
    have fresh : o ∉ ps := fun m => (List.nodup_append.1 nodup).2.2 o m o (by simp) rfl
    have shift : ps ++ o :: os = ps ++ [o] ++ os := by simp
    simp only [List.length_append, List.length_cons] at few
    rw [shift] at nodup ⊢
    exact State.Told.foldl os (ps ++ [o]) _ (h.next calls used open_ fresh (by omega)) nodup
      (by simp only [List.length_append, List.length_cons, List.length_nil]; omega)

theorem State.told_all (holds : s.noticeHolds) :
    s.Told e missing allOutputs (allOutputs.foldl (State.tell e) s) :=
  State.Told.foldl calls used open_ allOutputs [] s
    ⟨s.changesOnly_refl _, holds, .refl _, Nat.le_add_right _ _, fun _ m => absurd m (by simp), fun _ _ => ⟨rfl, rfl⟩⟩
    (by decide) (by decide)

end turns

/-! ### The entry of the fill (R124, R163) -/

/-- The answer joins the bytes of a FETCHING entry; the last one settles it. -/
theorem CacheEntry.answered_of_fetching {x : CacheEntry} (fetching : x.state = .fetching) (beats : List ReadBeat) :
    x.answered beats =
      { x with
        left := x.left - 1
        bad := x.bad || anyError beats
        state := if 1 < x.left then .fetching else if x.bad || anyError beats then .faulted else .valid
        bytes := if x.left ≤ 1 ∧ (x.bad || anyError beats) = true then [] else x.bytes ++ beatData beats } := by
  unfold CacheEntry.answered
  by_cases last : x.left ≤ 1
  · have not : ¬ 1 < x.left := Nat.not_lt.2 last
    cases bad : x.bad || anyError beats <;> simp [last, not]
  · have more : 1 < x.left := Nat.lt_of_not_le last
    simp [last, more, fetching]

theorem CacheEntry.answered_uses (x : CacheEntry) (beats : List ReadBeat) : (x.answered beats).uses = x.uses := by
  unfold CacheEntry.answered
  dsimp only
  repeat' split
  all_goals rfl

section fetching
variable {x : CacheEntry} (fetching : x.state = .fetching) (beats : List ReadBeat)
include fetching

theorem CacheEntry.answered_fetching_iff : (x.answered beats).state = .fetching ↔ 1 < x.left := by
  rw [CacheEntry.answered_of_fetching fetching]
  dsimp only
  split
  · next more => simp [more]
  · next last => split <;> simp [last]

theorem CacheEntry.answered_live : (x.answered beats).state ≠ .free := by
  rw [CacheEntry.answered_of_fetching fetching]
  dsimp only
  repeat' split
  all_goals decide

end fetching

/-- A build is called for the other record's lines that it does not hold: B's when w is 0 and A is faulted, A's when w
is 256 and B is (R104, R105, R115). -/
theorem State.called_eq (d : Build) (s : State) : s.called d =
    if (∀ h ∈ d.holds, s.cache.entries[h.2].state ≠ .fetching) ∧ d.a.number ≠ d.b.number then
      (if d.weight = 0 ∧ s.faulted d d.a = true then distinct (d.taps d.b)
      else if d.weight = 256 ∧ s.faulted d d.b = true then distinct (d.taps d.a) else []).filter
        fun k => k ∉ d.holds.map (·.1)
    else [] := by
  have held (k : CacheKey) : (d.entryOf k).isNone = decide (k ∉ d.holds.map (·.1)) := by
    rw [Bool.eq_iff_iff, decide_eq_true_iff, ← Bool.not_eq_false, Option.isNone_eq_false_iff, Build.entryOf_isSome,
      List.mem_map]
  unfold State.called State.missingConceal
  rw [Build.concealKeys_eq]
  simp only [held]
  by_cases settled : ∀ h ∈ d.holds, s.cache.entries[h.2].state ≠ .fetching
  · rw [if_pos (State.settled_iff.2 settled)]
    by_cases apart : d.a.number ≠ d.b.number
    · have due : (∀ h ∈ d.holds, s.cache.entries[h.2].state ≠ .fetching) ∧ d.a.number ≠ d.b.number :=
        ⟨settled, apart⟩
      rw [if_pos apart, if_pos due]
    · rw [if_neg apart, if_neg fun h => apart h.2]
      rfl
  · rw [if_neg (mt State.settled_iff.1 settled), if_neg fun h => settled h.1]

/-- An entry that stays in use, and is neither FREE nor VALID out of use before or after, is none to spare. -/
theorem Cache.spare_set {c : Cache} {e : EntryId} {x : CacheEntry} (live : c.entries[e].state ≠ .free)
    (used : 0 < c.entries[e].uses) (live' : x.state ≠ .free) (used' : 0 < x.uses) : (c.put e x).spare = c.spare := by
  refine List.countP_congr fun i _ => ?_
  by_cases same : i = e
  · subst same
    have written : (c.put i x).entries[i] = x := vector_set_self ..
    simp only [written, live, live', Nat.ne_of_gt used, Nat.ne_of_gt used', false_and, and_false, or_self]
  · have kept : (c.put e x).entries[i] = c.entries[i] := vector_set_other _ _ _ _ same
    rw [kept]
    rfl

/-- The state in which the answer `beats` of the response `r` has joined entry `e`. -/
def State.filled (r : Reply) (e : EntryId) (beats : List ReadBeat) (s : State) : State :=
  { s.without r with cache := s.cache.put e (s.cache.entries[e].answered beats) }

section filled
variable {r : Reply} {e : EntryId} {beats : List ReadBeat} {s : State}

theorem State.filled_entry : (s.filled r e beats).cache.entries[e] = s.cache.entries[e].answered beats :=
  vector_set_self ..

theorem State.filled_entry_other {i : EntryId} (other : i ≠ e) :
    (s.filled r e beats).cache.entries[i] = s.cache.entries[i] := vector_set_other _ _ _ _ other

theorem State.filled_changesOnly : s.changesOnly [.granted, .cache] (s.filled r e beats) := by
  intro p named
  cases p <;> simp_all [State.same, State.ref, State.filled, State.without]

variable (fetching : s.cache.entries[e].state = .fetching) (inUse : 0 < s.cache.entries[e].uses)
include fetching inUse

/-- The entries in use are in use after an answer. -/
theorem State.filled_used {i : EntryId} (live : s.cache.entries[i].state ≠ .free) (used : 0 < s.cache.entries[i].uses) :
    (s.filled r e beats).cache.entries[i].state ≠ .free ∧ 0 < (s.filled r e beats).cache.entries[i].uses := by
  by_cases same : i = e
  · subst same
    rw [State.filled_entry, CacheEntry.answered_uses]
    exact ⟨CacheEntry.answered_live fetching beats, inUse⟩
  · rw [State.filled_entry_other same]
    exact ⟨live, used⟩

theorem State.filled_spare : (s.filled r e beats).cache.spare = s.cache.spare :=
  Cache.spare_set (by rw [fetching]; decide) inUse (CacheEntry.answered_live fetching beats)
    (by rw [CacheEntry.answered_uses]; exact inUse)

omit inUse in
/-- The row of a fill's answer: a write of its entry, and at the last answer every output is told. -/
theorem exec_lineFillResponse {o : OutId} {g : Granted} {addr : Addr} {len : Nat}
    (answers : s.answers (.read (fetchId o) beats) g) (work : g.work = .fetch o (.fill e addr len)) :
    exec (.lineFillResponse o beats) s = .next (if 1 < s.cache.entries[e].left
      then s.filled (.read (fetchId o) beats) e beats
      else allOutputs.foldl (State.tell e) (s.filled (.read (fetchId o) beats) e beats)) := by
  refine (State.replyRow_of_answers answers).trans ?_
  rw [work]
  have entry : (s.cache.put e (s.cache.entries[e].answered beats)).entries[e] = s.cache.entries[e].answered beats :=
    vector_set_self ..
  refine congrArg Host.Outcome.next ((State.fillAnswer_eq ..).trans (if_congr ?_ rfl rfl))
  exact (iff_of_eq (congrArg (fun x : CacheEntry => x.state = .fetching) entry)).trans
    (CacheEntry.answered_fetching_iff fetching beats)

end filled

/-- Settles O38: the answer is a write of its entry, and the last one tells the outputs in turn, each build that holds
the entry with room for its lookups. -/
theorem fillResponseSettlesTheEntry : Obligations.FillResponseSettlesTheEntry := by
  intro o beats g e addr len u missing s answers work holds fetching inUse joined missings
  obtain rfl : u = s.filled (.read (fetchId o) beats) e beats := by
    rw [joined, State.filled, CacheEntry.answered_of_fetching fetching]
    rfl
  have row := exec_lineFillResponse fetching answers work
  have used {i : EntryId} := State.filled_used (r := .read (fetchId o) beats) (beats := beats) fetching inUse (i := i)
  have spare := State.filled_spare (r := .read (fetchId o) beats) (beats := beats) fetching inUse
  have only : s.changesOnly [.granted, .cache] (s.filled (.read (fetchId o) beats) e beats) := State.filled_changesOnly
  generalize s.filled (.read (fetchId o) beats) e beats = u at *
  have calls (d : Build) : missing d = u.called d := (missings d).trans (u.called_eq d).symm
  have outputs (p : OutId) : u.outputs[p] = s.outputs[p] := only (.output p) (by simp)
  have class1 (p : OutId) : u.class1[p] = s.class1[p] := only (.class1 p) (by simp)
  refine ⟨fun quiet => ?_, fun last builds open_ => ?_⟩
  · rw [row]
    split
    · rfl
    · next last =>
      refine congrArg _ (List.foldl_fixed' (fun p => State.tell_of_not_called fun d build holder => ?_) allOutputs)
      rw [← calls d]
      exact quiet.resolve_left last p d (outputs p ▸ build) holder
  · rw [if_neg (Nat.not_lt.2 last)] at row
    have told := State.told_all (e := e) calls
      (fun p d build h m => used (builds p d (outputs p ▸ build) h m).1 (builds p d (outputs p ▸ build) h m).2)
      (spare ▸ open_) (State.noticeHolds_of_changesOnly holds only (by simp) (by simp) (by simp) (by simp))
    refine ⟨_, row, ?only, ?granted, fun i live inUse => ?kept, fun p => ?hears⟩
    case only =>
      exact State.changesOnly_trans (State.changesOnly_mono only (by simp))
        (State.changesOnly_mono told.only (List.subset_cons_self ..))
    case granted => exact told.only .granted (by simp [fillParts, outputParts])
    case kept => exact told.keeps i (used live inUse).1 (used live inUse).2
    case hears =>
      have hears := told.told p (by fin_cases p <;> simp [allOutputs])
      rw [outputs, class1] at hears
      exact hears

end Sys2Proof.Machine
end

section
/-! A burst presented at the Bus Port, by the limits and by the burst that waits on its channel (R108, R157). -/

namespace Sys2Proof.Machine

/-- A row that brings a burst to a part that runs presents it, whatever row it is (R148; log entry 7). -/
theorem exec_burstRow {b : Burst} {i : Instr} {s : State} (row : i ∈ burstRows b) (run : s.resetting = false) :
    exec i s = .next (s.presentBurst b) := by
  refine Eq.trans ?_ (State.unlessReset_of_running run fun s => .next (s.presentBurst b))
  simp only [burstRows, List.mem_cons, List.not_mem_nil, or_false] at row
  obtain rfl | rfl | rfl | rfl | rfl | rfl | rfl | rfl | rfl | rfl := row
  all_goals rfl

section present
variable {b : Burst} {s : State}

theorem State.roomFor_iff : s.roomFor b = true ↔ ¬ s.fullFor b := by
  unfold State.roomFor State.fullFor
  by_cases write : b.write = true
  · simp only [write, if_true, decide_eq_true_eq, Nat.not_le]
    rfl
  · by_cases inWindow : ∃ o, s.classOf b.addr = some (.window o)
    · obtain ⟨o, window⟩ := inWindow
      have only (p : OutId) : s.classOf b.addr = some (.window p) ↔ o = p := by simp [window]
      simp only [write, Bool.false_eq_true, if_false, State.queueRoom_of_window window, only, Bool.and_eq_true,
        decide_eq_true_eq, exists_eq_left', not_or, Nat.not_le]
      rfl
    · have other := not_exists.1 inWindow
      simp only [write, Bool.false_eq_true, if_false, State.queueRoom_of_other other, other, Bool.and_true,
        decide_eq_true_eq, false_and, exists_const, or_false, Nat.not_le]
      rfl

/-- A burst is admitted when the limits leave it a place and no other burst waits on its channel (R157). -/
theorem State.admits_iff :
    s.admits b = true ↔ (s.heldFor b = none ∨ s.heldFor b = some b) ∧ ¬ s.fullFor b := by
  rw [State.admits, Bool.and_eq_true, Bool.or_eq_true, decide_eq_true_iff, decide_eq_true_iff, State.roomFor_iff]

theorem State.presentBurst_of_admitted (free : s.heldFor b = none ∨ s.heldFor b = some b) (room : ¬ s.fullFor b) :
    s.presentBurst b = (s.putHeld b none).dispatch b := if_pos (State.admits_iff.2 ⟨free, room⟩)

theorem State.presentBurst_of_full (full : s.fullFor b) : s.presentBurst b = s.hold b :=
  if_neg fun admitted => (State.admits_iff.1 admitted).2 full

/-- A burst behind another one stays with its master (R157). -/
theorem State.presentBurst_of_behind {x : Burst} (held : s.heldFor b = some x) (other : x ≠ b) :
    s.presentBurst b = s := by
  have refused : ¬ s.admits b = true := fun admitted => by
    simpa [held, other] using (State.admits_iff.1 admitted).1
  rw [State.presentBurst, if_neg refused, State.hold, if_neg (by simp [held])]

theorem State.heldFor_putHeld (x : Option Burst) : (s.putHeld b x).heldFor b = x := by
  unfold State.putHeld State.heldFor
  split <;> rfl

theorem State.putHeld_putHeld (x y : Option Burst) : (s.putHeld b x).putHeld b y = s.putHeld b y := by
  unfold State.putHeld
  split <;> rfl

theorem State.roomFor_putHeld (x : Option Burst) : (s.putHeld b x).roomFor b = s.roomFor b := by
  have class_ : (s.putHeld b x).classOf b.addr = s.classOf b.addr := by
    unfold State.classOf
    rw [(s.putHeld_retains b x).map]
  simp only [State.roomFor, State.queueRoom_congr class_ (State.putHeld_outputs ..), State.putHeld_writes,
    State.putHeld_reads]

/-- The burst that waits is taken as if its channel were free, once the limits allow it (log entry 10). -/
theorem State.presentBurst_again (held : s.heldFor b = some b) (room : ¬ s.fullFor b) :
    s.presentBurst b = (s.putHeld b none).presentBurst b := by
  have room' : ¬ (s.putHeld b none).fullFor b := by
    rwa [← State.roomFor_iff, State.roomFor_putHeld, State.roomFor_iff]
  rw [State.presentBurst_of_admitted (.inr held) room,
    State.presentBurst_of_admitted (.inl (State.heldFor_putHeld none)) room', State.putHeld_putHeld]

end present

/-- Settles O19: a burst that its channel cannot take is held where none waits; one that waits is presented again. -/
theorem fullChannelHoldsTheBurst : Obligations.FullChannelHoldsTheBurst := by
  intro b i s row run
  rw [exec_burstRow row run]
  refine ⟨fun full free => ?waits, fun full held => ?stays, fun x held other => ?behind, fun held room => ?again⟩
  case waits => rw [State.presentBurst_of_full full, State.hold, if_pos free]; rfl
  case stays => rw [State.presentBurst_of_full full, State.hold, if_neg held]
  case behind => rw [State.presentBurst_of_behind held other]
  case again =>
    have run' : (s.putHeld b none).resetting = false := by rw [State.putHeld_resetting]; exact run
    rw [State.presentBurst_again held room]
    exact (exec_burstRow row run').symm

end Sys2Proof.Machine
end

section
/-! The Line Cache by single lookups and releases (R121 to R125). -/

namespace Sys2Proof.Machine

/-! ### The entry that a miss takes (R123) -/

section victim
variable {c : Cache} {i : EntryId}

/-- The lowest FREE entry is taken first. -/
theorem Cache.victim_of_free (free : c.entries[i].state = .free)
    (lowest : ∀ j : EntryId, j < i → c.entries[j].state ≠ .free) : c.victim = some i := by
  have found : (allEntries.find? fun i => c.entries[i].state = .free) = some i := by
    rw [allEntries, List.find?_eq_some_iff_getElem]
    refine ⟨by simpa using free, i.val, by simp, by simp, fun j below => ?_⟩
    simpa using lowest ⟨j, by omega⟩ below
  rw [Cache.victim, found]
  rfl

/-- With no FREE entry, the least recently used VALID one with use count 0 is taken. -/
theorem Cache.victim_of_unused (full : ∀ j : EntryId, c.entries[j].state ≠ .free) {before after : List EntryId}
    (order : c.order = before ++ i :: after) (valid : c.entries[i].state = .valid) (unused : c.entries[i].uses = 0)
    (oldest : ∀ j ∈ before, c.entries[j].state ≠ .valid ∨ c.entries[j].uses ≠ 0) : c.victim = some i := by
  have none_ : (allEntries.find? fun i => c.entries[i].state = .free) = none :=
    List.find?_eq_none.2 fun j _ => by simpa using full j
  rw [Cache.victim, none_, Option.none_or, List.find?_eq_some_iff_append]
  refine ⟨by rw [valid, unused]; rfl, before, after, order, fun j m => ?_⟩
  rcases oldest j m with other | used
  · rw [decide_eq_false other]; rfl
  · rw [decide_eq_false used, Bool.and_false]; rfl

end victim

/-! ### A lookup (R122, R124) -/

section lookup
variable {o : OutId} {d : Build} {k : CacheKey} {i : EntryId} {s : State}

theorem State.lookup_of_find (found : s.cache.find k = some i) :
    s.lookup o d k = ({ s with cache := s.cache.hit i }, [(k, i)]) := by
  simp only [State.lookup, Cache.look, found]

theorem State.lookup_of_miss (missing : s.cache.find k = none) (victim : s.cache.victim = some i) :
    s.lookup o d k = (({ s with cache := s.cache.fetch k o (d.fillBursts k).length i }).request1 o
      (fillRequests i (d.fillBursts k)), [(k, i)]) := by
  simp only [State.lookup, Cache.look, missing, victim]

/-- The bursts of a fill bring the 4W bytes of the line, once and in address order (R124). -/
theorem Build.flatMap_fillBursts (d : Build) (k : CacheKey) :
    ((d.fillBursts k).flatMap fun p => List.range' p.1 p.2) = List.range' (d.lineAddr k) (4 * d.width) := by
  rw [Build.fillBursts, flatMap_pieces (by decide), Nat.add_sub_cancel_left]

/-- No burst of a fill is empty or crosses a multiple of 256 (R124). -/
theorem Build.fillBursts_within {p : Nat × Nat} (m : p ∈ d.fillBursts k) :
    0 < p.2 ∧ p.1 / 256 = (p.1 + p.2 - 1) / 256 :=
  (splitRange_within (by decide) m).imp_right Eq.symm

end lookup

/-! ### A release (R125) -/

/-- The last release of a FAULTED entry, or of a VALID one whose drop mark is set, frees it; any other release lowers
the use count. -/
theorem Cache.release_eq (i : EntryId) (c : Cache) : c.release i =
    if c.entries[i].uses ≤ 1 ∧
        (c.entries[i].state = .faulted ∨ (c.entries[i].state = .valid ∧ c.entries[i].drop = true)) then c.free i
    else c.put i { c.entries[i] with uses := c.entries[i].uses - 1 } := by
  refine if_congr ?_ rfl rfl
  simp only [Bool.and_eq_true, Bool.or_eq_true, decide_eq_true_eq]
  exact and_congr_left fun _ => by omega

/-- Settles O53: a lookup by what the cache finds and the entry that a miss takes, a release by the entry's last use. -/
theorem lookupsAndReleases : Obligations.LookupsAndReleases := by
  intro o d k i s
  refine ⟨fun found => ?hit, fun missing takes => ?miss, fun last ends => ?freed, fun goesOn => ?stays⟩
  case hit => exact State.lookup_of_find found
  case miss =>
    have victim : s.cache.victim = some i := by
      rcases takes with ⟨free, lowest⟩ | ⟨full, before, after, order, valid, unused, oldest⟩
      · exact Cache.victim_of_free free lowest
      · exact Cache.victim_of_unused full order valid unused oldest
    exact ⟨d.fillBursts k, State.lookup_of_miss missing victim, d.flatMap_fillBursts k,
      fun p m => Build.fillBursts_within m⟩
  case freed =>
    rw [Cache.release_eq, if_pos ⟨last, ends⟩]
    rfl
  case stays =>
    have stays : ¬ (s.cache.entries[i].uses ≤ 1 ∧ (s.cache.entries[i].state = .faulted ∨
        (s.cache.entries[i].state = .valid ∧ s.cache.entries[i].drop = true))) := by
      rintro ⟨last, ends⟩
      rcases goesOn with more | free | fetching | ⟨valid, kept⟩
      · exact Nat.not_le.2 more last
      · simp [free, -Fin.getElem_fin] at ends
      · simp [fetching, -Fin.getElem_fin] at ends
      · simp [valid, kept, -Fin.getElem_fin] at ends
    rw [Cache.release_eq, if_neg stays]
    rfl

end Sys2Proof.Machine
end

section
/-! The lines that a write into a slot region touches, and how such a write is passed on (R152). -/

namespace Sys2Proof.Machine

/-! ### The lines of a run of bytes -/

/-- A run of bytes touches a line when it begins before the line's end and ends behind its start. -/
theorem mem_linesTouched {stride lo hi y : Nat} (positive : 0 < stride) (some_ : lo < hi) :
    y ∈ linesTouched stride lo hi ↔ y * stride < hi ∧ lo < (y + 1) * stride := by
  have starts : y * stride < hi ↔ y ≤ (hi - 1) / stride := by
    rw [Nat.le_div_iff_mul_le positive]
    omega
  have ends : lo < (y + 1) * stride ↔ lo / stride ≤ y := by
    rw [← Nat.div_lt_iff_lt_mul positive]
    omega
  rw [starts, ends, linesTouched, List.mem_map]
  constructor
  · rintro ⟨n, below, rfl⟩
    have := List.mem_range.1 below
    omega
  · rintro ⟨upper, lower⟩
    exact ⟨y - lo / stride, List.mem_range.2 (by omega), by omega⟩

theorem FeedConfig.mul_stride_le_windowSize {c : FeedConfig} {n : Nat} (le : n ≤ c.lines) :
    n * c.stride ≤ c.windowSize := by
  refine (Nat.mul_le_mul_right c.stride le).trans ?_
  rw [FeedConfig.windowSize, roundPage]
  omega

/-- A burst touches the frame lines of each slot whose bytes it addresses, and no others (R126, R152). -/
theorem mem_slotLines {b : Burst} {c : FeedConfig} {slot : SlotId} {y : Nat} (above : c.slotPage.toNat * 4096 ≤ b.low)
    (some_ : b.low < b.stop) (positive : 0 < c.stride) : (slot, y) ∈ slotLines c b ↔
      slot.val < c.slots ∧ y < c.lines ∧
        b.low < c.slotPage.toNat * 4096 + slot.val * c.windowSize + (y + 1) * c.stride ∧
        c.slotPage.toNat * 4096 + slot.val * c.windowSize + y * c.stride < b.stop := by
  have pieces : (slot, y) ∈ slotLines c b ↔
      let lo := max (b.low - c.slotPage.toNat * 4096) (slot.val * c.windowSize) - slot.val * c.windowSize
      let hi := min (b.stop - c.slotPage.toNat * 4096) ((slot.val + 1) * c.windowSize) - slot.val * c.windowSize
      slot.val < c.slots ∧ y < c.lines ∧ lo < hi ∧ y ∈ linesTouched c.stride lo hi := by
    simp only [slotLines, List.mem_flatMap, List.mem_ite_nil_right, List.mem_map, List.mem_filter, Prod.mk.injEq,
      Bool.and_eq_true, decide_eq_true_eq]
    constructor
    · rintro ⟨t, -, ⟨placed, some_⟩, z, ⟨touched, inFrame⟩, rfl, rfl⟩
      exact ⟨placed, inFrame, some_, touched⟩
    · rintro ⟨placed, inFrame, some_, touched⟩
      exact ⟨slot, List.mem_finRange slot, ⟨placed, some_⟩, y, ⟨touched, inFrame⟩, rfl, rfl⟩
  rw [pieces]
  refine and_congr_right fun _ => and_congr_right fun inFrame => ?_
  have line := FeedConfig.mul_stride_le_windowSize (c := c) inFrame
  rw [and_congr_right (mem_linesTouched positive)]
  rw [Nat.succ_mul] at line
  rw [Nat.succ_mul, Nat.succ_mul]
  omega

/-! ### A burst that is passed on -/

theorem State.open_iff {b : Burst} {s : State} :
    s.open_ b ↔ s.resetting = false ∧ s.heldFor b = none ∧ ¬ s.fullFor b := by
  unfold State.open_ State.heldFor State.fullFor
  refine and_congr_right fun _ => ?_
  split
  · rw [Nat.not_le]
  · simp only [not_or, not_exists, not_and, Nat.not_le]

/-- As in `State.dispatch_elim`, `State.dispatch` is unfolded as a function, before it meets its arguments. -/
theorem State.dispatch_of_forwarded {b : Burst} {kind : BusKind} {s : State} (route : s.route b = .forwarded kind) :
    s.dispatch b = s.passedOn b b kind := by
  rw [← State.forward_eq_passedOn]
  generalize unfolded : State.dispatch = d
  delta State.dispatch at unfolded
  subst unfolded
  simp only [route]

/-- A write into a slot region goes on with the lines that it touches (R152; log entry 24). -/
theorem exec_passthrough_slotWrite {b : Burst} {f : FeedId} {c : FeedConfig} {s : State} (room : s.open_ b)
    (write : b.write = true) (region : s.classOf b.addr = some (.slots f)) (config : s.feeds[f].config = some c) :
    exec (.passthrough b) s = .next (s.passedOn b b (.slot f (slotLines c b))) := by
  obtain ⟨run, free, notFull⟩ := State.open_iff.1 room
  have route : s.route b = .forwarded (.slot f (slotLines c b)) := by
    rw [State.route_eq, region]
    simp only [State.slotKind, config, write, if_true]
  rw [exec_burstRow (b := b) (by simp [burstRows]) run, State.presentBurst_of_admitted (.inl free) notFull,
    State.putHeld_none free, State.dispatch_of_forwarded route]

end Sys2Proof.Machine
end

section
/-! Notices (R126): what they make of an entry and of the cache, one after the other. -/

namespace Sys2Proof.Machine

/-! ### One entry -/

section noticed
variable {e : CacheEntry} {p q : CacheKey → Bool}

/-- A notice reaches an entry that is not FREE and holds a key that it names. -/
theorem CacheEntry.noticed_eq (e : CacheEntry) (p : CacheKey → Bool) : e.noticed p =
    if e.state ≠ .free ∧ e.key.any p = true then
      if e.state = .valid ∧ e.uses = 0 then .freed else { e with drop := true }
    else e := by
  unfold CacheEntry.noticed
  cases e.key with
  | none => simp
  | some k =>
    by_cases free : e.state = .free
    · simp [free]
    · cases named : p k <;> simp [free, named]

theorem CacheEntry.noticed_of_free (free : e.state = .free) : e.noticed p = e := by
  rw [noticed_eq, if_neg fun named => named.1 free]

theorem CacheEntry.noticed_of_other (other : ¬ e.key.any p = true) : e.noticed p = e := by
  rw [noticed_eq, if_neg fun named => other named.2]

theorem CacheEntry.noticed_of_unused (named : e.key.any p = true) (unused : e.state = .valid ∧ e.uses = 0) :
    e.noticed p = .freed := by
  rw [noticed_eq, if_pos ⟨by simp [unused.1], named⟩, if_pos unused]

theorem CacheEntry.noticed_of_used (live : e.state ≠ .free) (named : e.key.any p = true)
    (used : ¬ (e.state = .valid ∧ e.uses = 0)) : e.noticed p = { e with drop := true } := by
  rw [noticed_eq, if_pos ⟨live, named⟩, if_neg used]

/-- A second notice leaves the entry as one notice of both kinds of keys does. -/
theorem CacheEntry.noticed_noticed (e : CacheEntry) (p q : CacheKey → Bool) :
    (e.noticed p).noticed q = e.noticed fun k => p k || q k := by
  have either : (e.key.any fun k => p k || q k) = (e.key.any p || e.key.any q) := by cases e.key <;> rfl
  by_cases free : e.state = .free
  · simp only [noticed_of_free free]
  by_cases named : e.key.any p = true
  · have both : (e.key.any fun k => p k || q k) = true := by rw [either, named, Bool.true_or]
    by_cases unused : e.state = .valid ∧ e.uses = 0
    · rw [noticed_of_unused named unused, noticed_of_unused both unused, noticed_of_free rfl]
    · rw [noticed_of_used free named unused, noticed_of_used free both unused]
      by_cases again : e.key.any q = true
      · exact noticed_of_used free again unused
      · exact noticed_of_other again
  · rw [noticed_of_other named, noticed_eq, noticed_eq, either, Bool.eq_false_iff.2 named, Bool.false_or]

/-- An entry that still holds a named key after the notice is FREE or has its drop mark set (R121). -/
theorem CacheEntry.noticed_not_findable (named : (e.noticed p).key.any p = true) :
    (e.noticed p).findable = false := by
  by_cases free : e.state = .free
  · simp [noticed_of_free free, findable, free]
  by_cases own : e.key.any p = true
  · by_cases unused : e.state = .valid ∧ e.uses = 0
    · rw [noticed_of_unused own unused]
      rfl
    · simp [noticed_of_used free own unused, findable]
  · rw [noticed_of_other own] at named
    exact absurd named own

end noticed

/-! ### The cache -/

theorem Cache.notice_entry (p : CacheKey → Bool) (c : Cache) (i : EntryId) :
    (c.notice p).entries[i] = c.entries[i].noticed p := Vector.getElem_map ..

theorem Cache.notice_notice (p q : CacheKey → Bool) (c : Cache) :
    (c.notice p).notice q = c.notice fun k => p k || q k := by
  have entries : ((c.notice p).notice q).entries = (c.notice fun k => p k || q k).entries := by
    simp only [Cache.notice, Vector.map_map, Function.comp_def, CacheEntry.noticed_noticed]
  have leaves (i : EntryId) (free : (c.notice p).entries[i].state = .free) :
      ((c.notice p).notice q).entries[i].state = .free := by
    rw [Cache.notice_entry, CacheEntry.noticed_of_free free, free]
  have order : ((c.notice p).notice q).order = (c.notice fun k => p k || q k).order := by
    show (c.order.filter fun i => (c.notice p).entries[i].state ≠ .free).filter
        (fun i => ((c.notice p).notice q).entries[i].state ≠ .free) =
      c.order.filter fun i => (c.notice fun k => p k || q k).entries[i].state ≠ .free
    rw [← entries, List.filter_filter]
    refine List.filter_congr fun i _ => ?_
    rw [Bool.eq_iff_iff, Bool.and_eq_true, decide_eq_true_iff, decide_eq_true_iff]
    exact and_iff_left_of_imp fun live free => live (leaves i free)
  exact congrArg₂ Cache.mk entries order

/-- Where nothing is named, nothing changes. -/
theorem Cache.dropped_of_unnamed {p : CacheKey → Prop} (none_ : ∀ k, ¬ p k) (c : Cache) : c.dropped p c :=
  ⟨fun _ k _ named => absurd named (none_ k), fun _ _ => rfl, fun live => (List.filter_eq_self.2 fun i m => by
    simpa using live i m).symm⟩

/-- One notice reaches the cache as R126 says. -/
theorem Cache.notice_dropped (p : CacheKey → Bool) (c : Cache) : c.dropped (fun k => p k = true) (c.notice p) := by
  refine ⟨fun i k key named live => ?_, fun i other => ?_, fun _ => rfl⟩
  · have named : c.entries[i].key.any p = true := by rw [key]; exact named
    rw [Cache.notice_entry]
    exact ⟨fun valid unused => CacheEntry.noticed_of_unused named ⟨valid, unused⟩,
      CacheEntry.noticed_of_used live named⟩
  · rw [Cache.notice_entry]
    rcases other with free | other
    · exact CacheEntry.noticed_of_free free
    · refine CacheEntry.noticed_of_other fun named => ?_
      cases key : c.entries[i].key with
      | none => simp [key, -Fin.getElem_fin] at named
      | some k => exact other k key (by simpa [key, -Fin.getElem_fin] using named)

theorem Cache.find_notice {p : CacheKey → Bool} {k : CacheKey} (named : p k = true) (c : Cache) :
    (c.notice p).find k = none := by
  refine List.find?_eq_none.2 fun i _ found => ?_
  rw [Bool.and_eq_true, decide_eq_true_iff] at found
  obtain ⟨findable, key⟩ := found
  rw [Cache.notice_entry] at findable key
  have missed := CacheEntry.noticed_not_findable (e := c.entries[i]) (p := p) (by rw [key]; exact named)
  rw [missed] at findable
  cases findable

end Sys2Proof.Machine
end

section
/-! The responses to writes into slot and slate regions (R150, R152, R153, R163). -/

namespace Sys2Proof.Machine

/-! ### Several notices in turn (R126) -/

section notices
variable {α : Type} (g : α → CacheKey → Bool)

theorem State.foldl_notify : ∀ (l : List α) (p : CacheKey → Bool) (s : State),
    l.foldl (fun s a => s.notify (g a)) (s.notify p) = s.notify fun k => p k || l.any (g · k)
  | [], p, s => by simp
  | a :: l, p, s => by
    have joined : (s.notify p).notify (g a) = s.notify fun k => p k || g a k :=
      congrArg (fun c => { s with cache := c }) (Cache.notice_notice ..)
    rw [List.foldl_cons, joined, State.foldl_notify l]
    simp only [List.any_cons, Bool.or_assoc]

/-- Notices in turn drop from the cache what any of them names, and no other line. -/
theorem State.foldl_notify_dropped (l : List α) (s : State) :
    let t := l.foldl (fun s a => s.notify (g a)) s
    s.cache.dropped (fun k => l.any (g · k) = true) t.cache ∧
      (∀ k : CacheKey, l.any (g · k) = true → t.cache.find k = none) ∧ s.changesOnly [.cache] t := by
  cases l with
  | nil => exact ⟨Cache.dropped_of_unnamed (by simp) s.cache, by simp, s.changesOnly_refl _⟩
  | cons a l =>
    rw [List.foldl_cons, State.foldl_notify]
    exact ⟨Cache.notice_dropped _ s.cache, fun k named => Cache.find_notice named s.cache, s.notify_changesOnly _⟩

end notices

/-! ### The response to a forwarded write (R150) -/

/-- The pieces that the answer to an accepted write changes. -/
def answerParts : List Part := [.reads, .writes, .busOut]

/-- A write's response goes up its port unchanged, whatever else it does (R150, R163). -/
theorem State.busWritten_of_effect {x : Forwarded} {resp : Resp} {ps : List Part} {s : State}
    (effect : ∀ u : State, u.changesOnly ps (u.busEffect x resp)) (apart : ∀ p ∈ answerParts, p ∉ ps) :
    s.answeredUp x.serial resp (s.busWritten x resp) ∧ s.changesOnly (ps ++ answerParts) (s.busWritten x resp) := by
  have only := effect (s.answerWrite x.serial resp)
  refine ⟨⟨_, rfl, rfl, rfl, only .busOut (apart _ (by decide)), only .reads (apart _ (by decide)),
    only .writes (apart _ (by decide))⟩, ?_⟩
  have back : s.changesOnly [.writes] (s.answerWrite x.serial resp) := by
    intro p named
    cases p <;> simp_all [State.same, State.ref]
  exact State.changesOnly_trans (State.changesOnly_mono back (by simp [answerParts])) (State.changesOnly_trans
    (State.changesOnly_mono only (List.subset_append_left ..))
    (State.changesOnly_mono (State.flush_changesOnly _) (List.subset_append_right ..)))

/-- The row of a forwarded write's response, by what the response does besides going up (R163). -/
theorem State.replyRow_of_written {n : BitVec 9} {resp : Resp} {g : Granted} {x : Forwarded} {ps : List Part}
    {s : State} (answers : s.answers (.write n resp) g) (work : g.work = .bus x) (write : x.burst.write = true)
    (effect : ∀ u : State, u.changesOnly ps (u.busEffect x resp)) (apart : ∀ p ∈ replyParts, p ∉ ps) :
    let u := s.without (.write n resp)
    let t := u.busWritten x resp
    replyRow (.write n resp) s = .next t ∧ s.answeredUp x.serial resp t ∧ t.granted = u.granted ∧
      s.changesOnly (ps ++ replyParts) t ∧ u.changesOnly (ps ++ answerParts) t := by
  obtain ⟨up, only⟩ := State.busWritten_of_effect (s := s.without (.write n resp)) effect
    fun p m => apart p (List.mem_cons_of_mem _ m)
  have granted : .granted ∉ ps ++ answerParts := fun m =>
    (List.mem_append.1 m).elim (apart .granted (by decide)) (by decide)
  refine ⟨?row, up, only .granted granted, ?only, only⟩
  case row =>
    rw [State.replyRow_of_answers answers, work, State.finish, if_pos write]
    rfl
  case only =>
    exact State.changesOnly_trans
      (State.changesOnly_mono (State.without_changesOnly _ s) (by simp [replyParts]))
      (State.changesOnly_mono only (List.append_subset.2
        ⟨List.subset_append_left .., List.subset_append_of_subset_right ps (List.subset_cons_self ..)⟩))

/-! ### Slate reads that wait (R153) -/

theorem Forwarded.writesSlate_iff {page : Nat} {r : Forwarded} : r.writesSlate page = true ↔
    r.kind = .slate ∧ r.burst.write = true ∧ r.burst.addr.toNat / 4096 = page := by
  simp [Forwarded.writesSlate, and_assoc]

/-- The slate-write list: the slate writes in class 2 and those granted, each in its first page (log entry 39). -/
theorem State.slateWritten_iff {page : Nat} {s : State} : s.slateWritten page = true ↔
    ∃ r : Forwarded, (r ∈ s.class2 ∨ ∃ g ∈ s.granted, g.work = .bus r) ∧ r.kind = .slate ∧
      r.burst.write = true ∧ r.burst.addr.toNat / 4096 = page := by
  simp only [← Forwarded.writesSlate_iff]
  rw [State.slateWritten, Bool.or_eq_true, List.any_eq_true, List.any_eq_true]
  constructor
  · rintro (⟨r, m, written⟩ | ⟨g, m, written⟩)
    · exact ⟨r, .inl m, written⟩
    · split at written
      · next r work => exact ⟨r, .inr ⟨g, m, work⟩, written⟩
      · cases written
  · rintro ⟨r, m | ⟨g, m, work⟩, written⟩
    · exact .inl ⟨r, m, written⟩
    · exact .inr ⟨g, m, by rw [work]; exact written⟩

/-- The pieces that released slate reads change. -/
def slateParts : List Part := [.waitingSlate, .class1 0, .class1 1, .class1 2, .class1 3]

/-- Waiting reads offered in turn: each joins class 1 of its output, or waits while its page is listed. -/
theorem State.foldl_offerSlate : ∀ (l : List WaitingSlate) (s : State),
    let t := l.foldl (fun s w => s.offerSlate w) s
    (∀ o : OutId, t.class1[o] = s.class1[o] ++
      (l.filter fun w => w.output = o ∧ s.slateWritten (w.addr.toNat / 4096) = false).map
        fun w => .slate w.index w.addr w.len) ∧
    t.waitingSlate = s.waitingSlate ++ l.filter (fun w => s.slateWritten (w.addr.toNat / 4096)) ∧
    s.changesOnly slateParts t
  | [], s => ⟨fun o => by simp, by simp, s.changesOnly_refl _⟩
  | w :: l, s => by
    obtain ⟨joined, waits, only⟩ := s.offerSlate_spec w
    obtain ⟨class1, waiting, rest⟩ := State.foldl_offerSlate l (s.offerSlate w)
    have written := State.slateWritten_of_changesOnly only (by simp) (by simp)
    simp only [written] at class1 waiting
    refine ⟨fun o => ?_, ?_, State.changesOnly_trans (State.changesOnly_mono only ?_) rest⟩
    · rw [List.foldl_cons, class1]
      by_cases own : w.output = o
      · subst own
        refine (congrArg (· ++ _) joined).trans ?_
        cases listed : s.slateWritten (w.addr.toNat / 4096) <;> simp [listed]
      · have same : (s.offerSlate w).class1[o] = s.class1[o] := only (.class1 o) (by simp [Ne.symm own])
        rw [same, List.filter_cons, if_neg (by simp [own])]
    · rw [List.foldl_cons, waiting, waits, List.append_assoc, List.filter_cons]
      split <;> rfl
    · generalize w.output = o
      fin_cases o <;> simp [slateParts]

theorem State.releaseSlate_spec (s : State) :
    (∀ o : OutId, s.releaseSlate.class1[o] = s.class1[o] ++
      (s.waitingSlate.filter fun w => w.output = o ∧ s.slateWritten (w.addr.toNat / 4096) = false).map
        fun w => .slate w.index w.addr w.len) ∧
    s.releaseSlate.waitingSlate = s.waitingSlate.filter (fun w => s.slateWritten (w.addr.toNat / 4096)) ∧
    s.changesOnly slateParts s.releaseSlate := by
  obtain ⟨class1, waiting, only⟩ := State.foldl_offerSlate s.waitingSlate { s with waitingSlate := [] }
  refine ⟨class1, waiting, State.changesOnly_trans (t := { s with waitingSlate := [] }) (fun p named => ?_) only⟩
  cases p <;> simp_all [State.same, State.ref, slateParts]

/-! ### The statement -/

/-- The line notices of a write name the lines that it touched, whatever their generation (R126). -/
theorem any_anyLineNotice {f : FeedId} {lines : List (SlotId × Nat)} {k : CacheKey} :
    lines.any (fun a => anyLineNotice f a.1 a.2 k) = true ↔ k.feed = f ∧ (k.slot, k.line) ∈ lines := by
  simp [anyLineNotice, and_assoc, and_comm]

/-- Settles O35: the lines of a slot region write are fixed when it is passed on and dropped at its response; the
response to a slate write offers the waiting reads again. -/
theorem regionWriteResponses : Obligations.RegionWriteResponses := by
  refine ⟨fun b c slot y above some_ positive => mem_slotLines above some_ positive,
    fun b f c s room write region config => exec_passthrough_slotWrite room write region config, ?slot, ?slate⟩
  case slot =>
    intro id resp g x f lines s answers work write kind
    have effect (u : State) : u.busEffect x resp = lines.foldl (fun s a => s.notify (anyLineNotice f a.1 a.2)) u := by
      rw [State.busEffect, kind]
    obtain ⟨row, up, granted, only, -⟩ := State.replyRow_of_written (ps := [.cache]) answers work write
      (fun u => by rw [effect]; exact (State.foldl_notify_dropped _ lines u).2.2) (by decide)
    obtain ⟨dropped, gone, -⟩ := State.foldl_notify_dropped (fun a => anyLineNotice f a.1 a.2) lines
      ((s.without (.write (id.setWidth 9) resp)).answerWrite x.serial resp)
    rw [← effect] at dropped gone
    simp only [any_anyLineNotice] at dropped gone
    exact ⟨_, row, up, granted, only, dropped, fun k feed line => gone k ⟨feed, line⟩⟩
  case slate =>
    intro id resp g x s answers work write kind
    have effect (u : State) : u.busEffect x resp = u.releaseSlate := by rw [State.busEffect, kind]
    obtain ⟨row, up, granted, only, only'⟩ := State.replyRow_of_written (ps := slateParts) answers work write
      (fun u => by rw [effect]; exact u.releaseSlate_spec.2.2) (by decide)
    obtain ⟨class1, waiting, -⟩ :=
      ((s.without (.write (id.setWidth 9) resp)).answerWrite x.serial resp).releaseSlate_spec
    have listed (page : Nat) : ((s.without (.write (id.setWidth 9) resp)).busWritten x resp).slateWritten page =
        ((s.without (.write (id.setWidth 9) resp)).answerWrite x.serial resp).slateWritten page :=
      State.slateWritten_of_changesOnly only' (by decide) (by decide) page
    rw [← effect] at class1 waiting
    simp only [← listed] at class1 waiting
    exact ⟨_, row, up, only, granted, fun u page => State.slateWritten_iff, waiting, class1⟩

end Sys2Proof.Machine
end

section
/-! The mode state: the commands that set it, and the table events (07). -/

namespace Sys2Proof.Machine

/-! ### A command on the mode state, carried out -/

section modes
variable {code : Byte} {w : CellWrite} {o : OutId} {s : State}

/-- A mode command that passes its checks replaces the modes of its one output and marks the output's record; `refusal`
and `g` read the state in which the command is carried out. -/
theorem State.modeCommand_carried {run : CellWrite → State → State} {refusal : OutId → State → Refused}
    {g : OutId → State → Modes → Modes} {m : Modes} (ready : s.ready w) (notice : s.noticeHolds)
    (target : targetQuad w = some o)
    (runs : run w (s.taken code w) = (s.taken code w).onQuad w fun o s => s.judge w.cell (refusal o s) fun s =>
      (s.modifyModes o (g o s)).mark (.output o))
    (accepted : refusal o (s.taken code w) = none) (modes : g o (s.taken code w) s.outputs[o].modes = m) :
    ∃ t, cellRow code run w s = .next t ∧ s.carried code w [.output o] t ∧ t.marked (.output o) ∧
      t.outputs[o] = { s.outputs[o] with modes := m } := by
  have wrote : (s.taken code w).quietly [.output o] [.output o]
      ((s.taken code w).modifyModes o (g o (s.taken code w))) :=
    State.modifyOutput_quietly (State.taken_quietly code w notice).2.2 rfl rfl
  have act := State.quietly_trans wrote (State.mark_quietly [.output o] (r := .output o) wrote.2.2
    (.inr (by simp [RecordSel.part])))
  have ran : cellRow code run w s = .next ((((s.taken code w).modifyModes o (g o (s.taken code w))).mark
      (.output o)).settle w.cell .done 0) := by
    rw [State.cellRow_of_ready ready, runs, State.onQuad_of_target target, State.judge_of_none accepted]
  refine ⟨_, ran, State.carried_of_quietly notice act, ?_, ?_⟩
  · rw [(State.settled_of_quietly notice act (by simp)).2.2.2]
    exact State.mark_marked ..
  · rw [State.settle_outputs, State.mark_outputs, State.modifyModes_outputs, vector_set_self, State.taken_outputs,
      modes]

/-- A configured output passes the state check of its commands, which taking the command leaves as it was. -/
theorem State.need_isConfigured_of_taken (configured : s.outputs[o].state ≠ .unconfigured) :
    need (s.taken code w).outputs[o].isConfigured .wrongState = none := by
  rw [State.taken_outputs]
  exact need_of_true (decide_eq_true configured) _

theorem State.need_live_of_taken (live : s.outputs[o].live = true) :
    need (s.taken code w).outputs[o].live .wrongState = none := by
  rw [State.taken_outputs]
  exact need_of_true live _

theorem State.taken_slateOverlap (page : Option Page) :
    (s.taken code w).slateOverlap o page = s.slateOverlap o page := by
  simp only [State.slateOverlap, State.mapWithout, State.taken_addressMap, State.taken_outputs]

theorem State.taken_boundState {c : OutputConfig} (config : s.outputs[o].config = some c) :
    (s.taken code w).boundState o = s.feeds[c.feed].cadence.state := by
  simp only [State.boundState, State.taken_outputs, State.taken_feeds, config]

end modes

/-! ### What the commands' fields mean -/

theorem ok_of_firstBad : ∀ {checks : List (Nat × Bool)}, firstBad checks = none → ∀ c ∈ checks, c.2 = true
  | [], _, _, m => absurd m List.not_mem_nil
  | (_, false) :: _, passed, _, _ => by simp [firstBad] at passed
  | (_, true) :: checks, passed, c, m => by
    rcases List.mem_cons.1 m with rfl | later
    · rfl
    · exact ok_of_firstBad (checks := checks) passed c later

theorem badParam_of_none {n : Option Nat} (good : n = none) : badParam n = none := by rw [good]; rfl

/-- FORCE_MODE's field holds its mode by the mode's code (R181, R202). -/
theorem forcedMode_of_code {w : CellWrite} {m : Mode} (code : field w.w1 0 8 = m.code) : forcedMode w = some m := by
  rw [forcedMode, code]
  cases m <;> rfl

/-- The injection counter that SET_SLATE loads, by the code of its injection mode (R143, R202). -/
theorem Modes.ready_injectLeft {i : Injection} {code : Nat} (decoded : Injection.ofCode code = some i) (n : Nat)
    (m : Modes) : (m.ready i n).injectLeft = if code = 1 ∨ code = 2 then n else 0 := by
  unfold Injection.ofCode at decoded
  split at decoded <;> cases decoded <;> rfl

/-- SET_SLATE's parameters pass only with an injection mode of the four codes (R180). -/
theorem ofCode_of_slateParams {w : CellWrite} (params : slateParamBad w = none) :
    Injection.ofCode (field w.w1 8 8) = some (injectionOf w) := by
  unfold injectionOf
  cases decoded : Injection.ofCode (field w.w1 8 8) with
  | some i => rfl
  | none =>
    have third := ok_of_firstBad params _ (.tail _ (.tail _ (.head _)))
    simp [decoded] at third

/-- Settles O13: each of the four commands passes its checks and is one replacement of its output's modes. -/
theorem modeAndSlateCommands : Obligations.ModeAndSlateCommands := by
  refine ⟨?response, ?force, ?release, ?slate⟩
  case response =>
    intro w o s ready notice target configured params
    refine State.modeCommand_carried (code := 8) (run := State.setResponse) ready notice target rfl ?_ rfl
    refine firstRefusal_none fun r m => ?_
    rcases List.mem_pair.1 m with rfl | rfl
    · exact State.need_isConfigured_of_taken configured
    · exact badParam_of_none params
  case force =>
    intro w o mode s ready notice target live code
    have forced := forcedMode_of_code code
    rw [← forced]
    refine State.modeCommand_carried (code := 10) (run := State.forceMode) ready notice target rfl ?_ rfl
    refine firstRefusal_none fun r m => ?_
    rcases List.mem_pair.1 m with rfl | rfl
    · exact State.need_live_of_taken live
    · rw [forced]
      rfl
  case release =>
    intro w o c s ready notice target live config
    refine State.modeCommand_carried (code := 11) (run := State.releaseMode) ready notice target rfl
      (State.need_live_of_taken live) ?_
    rw [State.taken_boundState config, Modes.released]
    cases s.feeds[c.feed].cadence.state <;> rfl
  case slate =>
    intro w o s ready notice target configured params apart
    refine State.modeCommand_carried (code := 9) (run := State.setSlate) ready notice target rfl ?_ ?_
    · refine firstRefusal_none fun r m => ?_
      simp only [List.mem_cons, List.not_mem_nil, or_false] at m
      rcases m with rfl | rfl | rfl
      · exact State.need_isConfigured_of_taken configured
      · exact badParam_of_none params
      · exact (State.taken_slateOverlap _).trans apart
    · have loaded := Modes.ready_injectLeft (ofCode_of_slateParams params) (field w.w1 16 8) s.outputs[o].modes
      rw [← loaded]
      rfl

/-! ### Table events -/

theorem Modes.respond_eq (target : Option Mode) (m : Modes) :
    m.respond target = { m with pending := if m.manual then m.pending else target.or m.pending } := by
  unfold Modes.respond
  split
  · rfl
  · cases target <;> rfl

/-- A slate that counts already, or of another injection mode, is left as it is (R145). -/
theorem Modes.startOneShot_eq (m : Modes) :
    m.startOneShot =
      { m with
        counting := m.counting || decide (m.injection = .oneShot)
        injectLeft := if m.injection = .oneShot ∧ m.counting = false then m.injectN else m.injectLeft } := by
  unfold Modes.startOneShot
  split
  · next armed =>
    obtain ⟨oneShot, counting⟩ : m.injection = .oneShot ∧ m.counting = false := by simpa using armed
    simp [oneShot, counting]
  · next other =>
    have unarmed : ¬ (m.injection = .oneShot ∧ m.counting = false) := by simpa using other
    have counting : (m.counting || decide (m.injection = .oneShot)) = m.counting := by
      cases h : m.counting <;> simp_all
    rw [if_neg unarmed, counting]

/-- Settles O52: each event is the response, and LOCKED and SEEKING after LOST do one thing more. -/
theorem tableEventsSetThePendingMode : Obligations.TableEventsSetThePendingMode := by
  intro e m
  cases e with
  | locked => simp [Modes.feedEvent, ResponseTable.target, Modes.respond_eq, Modes.startOneShot_eq]
  | seeking afterLost =>
    cases afterLost <;> simp [Modes.feedEvent, ResponseTable.target, Modes.respond_eq, Modes.zeroHold]
  | lost => simp [Modes.feedEvent, ResponseTable.target, Modes.respond_eq]

end Sys2Proof.Machine
end

section
/-! The order of the responses at the Bus Port (R158, R159): what goes up of one ID, and what stays. -/

namespace Sys2Proof.Machine

/-! ### The two channels as one -/

/-- What a channel sends and keeps, when `answer` gives the response of a burst that is ready (R158). `blocked` is the
IDs with an earlier burst left. -/
def sendInOrder {α : Type} (ident : α → BitVec 8) (answer : α → Option BusOut) :
    List (BitVec 8) → List α → List α × List BusOut
  | _, [] => ([], [])
  | blocked, t :: ts =>
    match answer t, blocked.contains (ident t) with
    | some out, false => ((sendInOrder ident answer blocked ts).1, out :: (sendInOrder ident answer blocked ts).2)
    | _, _ => (t :: (sendInOrder ident answer (ident t :: blocked) ts).1,
        (sendInOrder ident answer (ident t :: blocked) ts).2)

/-- The response of an accepted read whose beats are all there (R159). -/
def ReadTxn.answer (t : ReadTxn) : Option BusOut := if t.ready then some (.read t.id t.beats) else none

/-- The response of an accepted write that has come back. -/
def WriteTxn.answer (t : WriteTxn) : Option BusOut := t.resp.map (.write t.id)

theorem sendReads_eq : ∀ (blocked : List (BitVec 8)) (l : List ReadTxn),
    sendReads blocked l = sendInOrder (·.id) ReadTxn.answer blocked l
  | _, [] => rfl
  | blocked, t :: ts => by
    rw [sendReads, sendInOrder, sendReads_eq blocked ts, sendReads_eq (t.id :: blocked) ts]
    cases ready : t.ready <;> cases blocked.contains t.id <;> simp only [ReadTxn.answer, ready] <;> rfl

theorem sendWrites_eq : ∀ (blocked : List (BitVec 8)) (l : List WriteTxn),
    sendWrites blocked l = sendInOrder (·.id) WriteTxn.answer blocked l
  | _, [] => rfl
  | blocked, t :: ts => by
    rw [sendWrites, sendInOrder, sendWrites_eq blocked ts, sendWrites_eq (t.id :: blocked) ts]
    cases resp : t.resp <;> cases blocked.contains t.id <;> simp only [WriteTxn.answer, resp] <;> rfl

/-! ### One ID -/

section channel
variable {α : Type} {ident : α → BitVec 8} {answer : α → Option BusOut}

theorem sendInOrder_of_ready {t : α} {out : BusOut} {blocked : List (BitVec 8)} (ready : answer t = some out)
    (free : ident t ∉ blocked) (ts : List α) : sendInOrder ident answer blocked (t :: ts) =
      ((sendInOrder ident answer blocked ts).1, out :: (sendInOrder ident answer blocked ts).2) := by
  simp [sendInOrder, ready, free]

theorem sendInOrder_of_waiting {t : α} {blocked : List (BitVec 8)} (waits : answer t = none ∨ ident t ∈ blocked)
    (ts : List α) : sendInOrder ident answer blocked (t :: ts) =
      (t :: (sendInOrder ident answer (ident t :: blocked) ts).1,
        (sendInOrder ident answer (ident t :: blocked) ts).2) := by
  rcases waits with none_ | block
  · simp [sendInOrder, none_]
  · simp [sendInOrder, block]

/-- Of an ID with an earlier burst left nothing goes up; of any other, the ready bursts up to the first that is not, in
order of acceptance. `show_` picks the responses of the ID. -/
theorem sendInOrder_ofId {β : Type} {id : BitVec 8} {show_ : BusOut → Option β}
    (own : ∀ t out, answer t = some out → ident t ≠ id → show_ out = none) :
    ∀ (l : List α) (blocked : List (BitVec 8)),
      let waiting := l.filter fun t => ident t = id
      let r := sendInOrder ident answer blocked l
      (id ∈ blocked → (r.1.filter fun t => ident t = id) = waiting ∧ r.2.filterMap show_ = []) ∧
      (id ∉ blocked → (r.1.filter fun t => ident t = id) = waiting.dropWhile (fun t => (answer t).isSome) ∧
        r.2.filterMap show_ =
          (waiting.takeWhile fun t => (answer t).isSome).filterMap fun t => (answer t).bind show_)
  | [], _ => by simp [sendInOrder]
  | t :: ts, blocked => by
    by_cases waits : answer t = none ∨ ident t ∈ blocked
    · obtain ⟨after, free⟩ := sendInOrder_ofId own ts (ident t :: blocked)
      rw [sendInOrder_of_waiting waits]
      by_cases mine : ident t = id
      · subst mine
        obtain ⟨kept, silent⟩ := after (by simp)
        refine ⟨fun _ => ⟨by simp [kept], silent⟩, fun open_ => ?_⟩
        have none_ : answer t = none := waits.resolve_right open_
        rw [silent]
        simp [kept, none_]
      · refine ⟨fun block => ?_, fun open_ => ?_⟩
        · simpa [mine] using after (by simp [block])
        · simpa [mine] using free (by simp [open_, Ne.symm mine])
    · obtain ⟨some_, open_⟩ := not_or.1 waits
      obtain ⟨out, ready⟩ := Option.ne_none_iff_exists'.1 some_
      obtain ⟨after, free⟩ := sendInOrder_ofId own ts blocked
      rw [sendInOrder_of_ready ready open_]
      by_cases mine : ident t = id
      · subst mine
        obtain ⟨kept, sent⟩ := free open_
        refine ⟨fun block => absurd block open_, fun _ => ?_⟩
        simp only [decide_true, List.filter_cons_of_pos, List.dropWhile_cons_of_pos, List.takeWhile_cons_of_pos,
          ready, Option.isSome_some, List.filterMap_cons, Option.bind_some, kept, sent, and_self]
      · simpa [mine, List.filterMap_cons, own t out ready mine] using And.intro after free

end channel

/-! ### The flush -/

section channel
variable {α : Type} {ident : α → BitVec 8} {answer : α → Option BusOut}

/-- Only the answers of accepted bursts go up. -/
theorem mem_sendInOrder : ∀ {l : List α} {blocked : List (BitVec 8)} {m : BusOut},
    m ∈ (sendInOrder ident answer blocked l).2 → ∃ t, answer t = some m
  | [], _, _, sent => by simp [sendInOrder] at sent
  | t :: ts, blocked, m, sent => by
    by_cases waits : answer t = none ∨ ident t ∈ blocked
    · rw [sendInOrder_of_waiting waits] at sent
      exact mem_sendInOrder sent
    · obtain ⟨some_, open_⟩ := not_or.1 waits
      obtain ⟨out, ready⟩ := Option.ne_none_iff_exists'.1 some_
      rw [sendInOrder_of_ready ready open_] at sent
      rcases List.mem_cons.1 sent with rfl | later
      · exact ⟨t, ready⟩
      · exact mem_sendInOrder later

end channel

/-- The beats that a response sends to the reads of an ID. -/
def BusOut.beatsFor (id : BitVec 8) : BusOut → Option (List ReadBeat)
  | .read i beats => if i = id then some beats else none
  | .write _ _ => none

/-- The response code that a response sends to the writes of an ID. -/
def BusOut.respFor (id : BitVec 8) : BusOut → Option Resp
  | .write i resp => if i = id then some resp else none
  | .read _ _ => none

section flush
variable {s : State}

theorem State.flush_reads_eq : s.flush.reads = (sendInOrder (·.id) ReadTxn.answer [] s.reads).1 :=
  congrArg Prod.fst (sendReads_eq [] s.reads)

theorem State.flush_writes_eq : s.flush.writes = (sendInOrder (·.id) WriteTxn.answer [] s.writes).1 :=
  congrArg Prod.fst (sendWrites_eq [] s.writes)

theorem State.flush_busOut_eq : s.flush.busOut = s.busOut ++
    ((sendInOrder (·.id) ReadTxn.answer [] s.reads).2 ++ (sendInOrder (·.id) WriteTxn.answer [] s.writes).2) := by
  rw [← sendReads_eq, ← sendWrites_eq, ← List.append_assoc]
  rfl

theorem State.sent_flush : s.sent s.flush =
    (sendInOrder (·.id) ReadTxn.answer [] s.reads).2 ++ (sendInOrder (·.id) WriteTxn.answer [] s.writes).2 := by
  rw [State.sent, State.flush_busOut_eq, List.drop_left]

end flush

theorem ReadTxn.isSome_answer (t : ReadTxn) : t.answer.isSome = t.ready := by
  cases ready : t.ready <;> simp [ReadTxn.answer, ready]

theorem WriteTxn.isSome_answer (t : WriteTxn) : t.answer.isSome = t.resp.isSome := by simp [WriteTxn.answer]

theorem ReadTxn.eq_of_answer {t : ReadTxn} {out : BusOut} (h : t.answer = some out) : out = .read t.id t.beats := by
  cases ready : t.ready <;> simp [ReadTxn.answer, ready] at h
  exact h.symm

theorem WriteTxn.eq_of_answer {t : WriteTxn} {out : BusOut} (h : t.answer = some out) :
    ∃ resp, out = .write t.id resp := by
  cases resp : t.resp <;> simp [WriteTxn.answer, resp] at h
  exact ⟨_, h.symm⟩

/-- What a list keeps behind the front that meets `p` does not begin with an element that meets it. -/
theorem not_of_head?_dropWhile {α : Type} {p : α → Bool} {l : List α} {x : α}
    (h : (l.dropWhile p).head? = some x) :
    p x = false := by
  simpa [h] using List.head?_dropWhile_not p l

section oneId
variable (s : State) (id : BitVec 8)

theorem State.flush_reads_ofId :
    (s.flush.reads.filter fun x => x.id = id) = (s.reads.filter fun x => x.id = id).dropWhile (·.ready) ∧
      (s.sent s.flush).filterMap (BusOut.beatsFor id) =
        ((s.reads.filter fun x => x.id = id).takeWhile (·.ready)).map (·.beats) := by
  have own (t : ReadTxn) (out : BusOut) (h : t.answer = some out) (other : t.id ≠ id) : out.beatsFor id = none := by
    rw [ReadTxn.eq_of_answer h]
    exact if_neg other
  obtain ⟨kept, sent⟩ := (sendInOrder_ofId own s.reads []).2 List.not_mem_nil
  simp only [ReadTxn.isSome_answer] at kept sent
  refine ⟨by rw [State.flush_reads_eq, kept], ?_⟩
  have writes : (sendInOrder (·.id) WriteTxn.answer [] s.writes).2.filterMap (BusOut.beatsFor id) = [] := by
    refine List.filterMap_eq_nil_iff.2 fun m sent => ?_
    obtain ⟨t, answer⟩ := mem_sendInOrder sent
    obtain ⟨resp, rfl⟩ := WriteTxn.eq_of_answer answer
    rfl
  rw [State.sent_flush, List.filterMap_append, writes, List.append_nil, sent, ← List.filterMap_eq_map]
  refine List.filterMap_congr fun t m => ?_
  have ready : t.ready = true := List.mem_takeWhile_imp (p := ReadTxn.ready) m
  have mine : t.id = id := by simpa using (List.mem_filter.1 ((List.takeWhile_sublist _).subset m)).2
  simp [ReadTxn.answer, ready, mine, BusOut.beatsFor]

theorem State.flush_writes_ofId :
    (s.flush.writes.filter fun x => x.id = id) = (s.writes.filter fun x => x.id = id).dropWhile (·.resp.isSome) ∧
      (s.sent s.flush).filterMap (BusOut.respFor id) =
        ((s.writes.filter fun x => x.id = id).takeWhile (·.resp.isSome)).filterMap (·.resp) := by
  have own (t : WriteTxn) (out : BusOut) (h : t.answer = some out) (other : t.id ≠ id) : out.respFor id = none := by
    obtain ⟨resp, rfl⟩ := WriteTxn.eq_of_answer h
    exact if_neg other
  obtain ⟨kept, sent⟩ := (sendInOrder_ofId own s.writes []).2 List.not_mem_nil
  simp only [WriteTxn.isSome_answer] at kept sent
  refine ⟨by rw [State.flush_writes_eq, kept], ?_⟩
  have reads : (sendInOrder (·.id) ReadTxn.answer [] s.reads).2.filterMap (BusOut.respFor id) = [] := by
    refine List.filterMap_eq_nil_iff.2 fun m sent => ?_
    obtain ⟨t, answer⟩ := mem_sendInOrder sent
    rw [ReadTxn.eq_of_answer answer]
    rfl
  rw [State.sent_flush, List.filterMap_append, reads, List.nil_append, sent]
  refine List.filterMap_congr fun t m => ?_
  have mine : t.id = id := by simpa using (List.mem_filter.1 ((List.takeWhile_sublist _).subset m)).2
  cases resp : t.resp <;> simp [WriteTxn.answer, resp, mine, BusOut.respFor]

end oneId

/-- Settles O45: of one ID, what goes up is the front of its accepted bursts that are ready. -/
theorem responsesGoUpInOrder : Obligations.ResponsesGoUpInOrder := by
  intro s id
  refine ⟨s.flush_changesOnly, ⟨(s.reads.filter fun x => x.id = id).takeWhile (·.ready), ?_⟩,
    ⟨(s.writes.filter fun x => x.id = id).takeWhile (·.resp.isSome), ?_⟩⟩
  · obtain ⟨kept, sent⟩ := s.flush_reads_ofId id
    rw [kept]
    exact ⟨List.takeWhile_append_dropWhile.symm, fun x m => List.mem_takeWhile_imp (p := ReadTxn.ready) m,
      fun x head => not_of_head?_dropWhile (p := ReadTxn.ready) head, sent⟩
  · obtain ⟨kept, sent⟩ := s.flush_writes_ofId id
    rw [kept]
    refine ⟨List.takeWhile_append_dropWhile.symm, fun x m => ?_, fun x head => ?_, sent⟩
    · exact Option.isSome_iff_ne_none.1 (List.mem_takeWhile_imp (p := fun x : WriteTxn => x.resp.isSome) m)
    · simpa using not_of_head?_dropWhile (p := fun x : WriteTxn => x.resp.isSome) head

end Sys2Proof.Machine
end

section
/-! Every command and event has a meaning; a response that answers no granted burst is the one fault (log entry 9). -/

namespace Sys2Proof.Machine

/-- A row that brings a response to the Memory Port hands it on, whatever row it is (log entry 8). -/
theorem exec_of_replyOf {c : Instr} {r : Reply} {s : State} (reply : replyOf c = some r) : exec c s = replyRow r s := by
  cases c with
  | ingestWriteResponse | forwardedResponse | slotRegionWriteResponse | slateWriteResponse
  | statusRecordWriteResponse | resultWordResponse | coefficientLoadCompletion | lineFillResponse
  | slateReadResponse =>
    obtain rfl := Option.some.inj reply
    rfl
  | _ => cases reply

theorem State.unlessReset_next (act : State → State) (s : State) :
    ∃ t, s.unlessReset (fun s => .next (act s)) = .next t := by
  unfold State.unlessReset
  split <;> exact ⟨_, rfl⟩

/-- Every other row leads to a next state. -/
theorem exec_of_replyOf_none {c : Instr} (noReply : replyOf c = none) (s : State) : ∃ t, exec c s = .next t := by
  cases c with
  | powerUp | resetLine | resetRelease => exact ⟨_, rfl⟩
  | ingestWriteResponse | forwardedResponse | slotRegionWriteResponse | slateWriteResponse
  | statusRecordWriteResponse | resultWordResponse | coefficientLoadCompletion | lineFillResponse
  | slateReadResponse => cases noReply
  | malformedCommandWrite b | commandOverrun b | controlBlockWrite b | passthrough b | slateRegionWrite b
  | ingestWrite b | ingestRead b | outputRead b | refusedBurst b | outputWindowWrite b =>
    exact State.unlessReset_next (State.presentBurst b) s
  | memoryPortGrant => exact State.unlessReset_next State.grant s
  | lineBuildCompletion o => exact State.unlessReset_next (State.buildCompletion o) s
  | referencePulse r => exact State.unlessReset_next (State.referencePulse r) s
  | referenceAbsent r => exact State.unlessReset_next (State.referenceAbsent r) s
  | underflow o => exact State.unlessReset_next (State.underflow o) s
  | lossTimerExpiry f => exact State.unlessReset_next (State.lossExpiry f) s
  | tick => exact State.unlessReset_next (fun s => s.settleTick.advance) s
  | _ => exact State.unlessReset_next (State.hostCommand _ _ _) s

theorem replyRow_ne_refused (r : Reply) (s : State) (x : Refusal) : replyRow r s ≠ .refused x := by
  unfold replyRow State.unlessReset State.takeReply
  split
  · simp
  · split <;> simp

theorem replyRow_eq_fault {r : Reply} {s : State} {f : Fault} :
    replyRow r s = .fault f ↔ s.resetting = false ∧ s.granted.find? (matchesGrant r) = none := by
  unfold replyRow State.unlessReset State.takeReply
  cases s.resetting
  · cases s.granted.find? (matchesGrant r) <;> cases f <;> simp
  · simp

/-- Settles O2: the rows by what they bring; a response alone can be unsolicited. -/
theorem onlyAnUnsolicitedResponseStops : Obligations.OnlyAnUnsolicitedResponseStops := by
  intro c s
  cases reply : replyOf c with
  | none =>
    obtain ⟨t, next⟩ := exec_of_replyOf_none reply s
    simp [next]
  | some r =>
    rw [exec_of_replyOf reply]
    exact ⟨replyRow_ne_refused r s, fun f => by simpa using replyRow_eq_fault⟩

end Sys2Proof.Machine
end

section
/-! Bursts by their class: forwarded unchanged, or refused at the Path Router (R147 to R156). -/

namespace Sys2Proof.Machine

/-! ### The class of an address (R147, R148) -/

theorem roundPage_div (x : Nat) : roundPage x / 4096 = (x + 4095) / 4096 := Nat.mul_div_cancel _ (by decide)

theorem State.mem_addressMap_iff_inMap {s : State} {e : MapEntry} : e ∈ s.addressMap ↔ s.inMap e := by
  have base : s.controlBase / 4096 = 256 * s.strap.toNat := by
    rw [State.controlBase]
    omega
  rw [State.mem_addressMap, State.inMap, base]
  refine or_congr Iff.rfl (or_congr ?_ ?_)
  · simp only [feedEntries, FeedConfig.windowSize, roundPage_div, pagesOf, List.mem_cons, List.not_mem_nil, or_false]
  · refine exists_congr fun o => ?_
    unfold outputEntries
    cases s.outputs[o].config with
    | none => simp
    | some c =>
      cases s.outputs[o].modes.slatePage <;>
        simp [windowEntry, slateEntry, OutputConfig.windowSize, roundPage_div, pagesOf]

theorem MapEntry.holds_iff {e : MapEntry} {a : Addr} : e.holds (a.toNat / 4096) = true ↔ e.holdsAddr a := by
  simp [MapEntry.holds, MapEntry.holdsAddr]

theorem State.classOf_eq_none {s : State} {a : Addr} : s.classOf a = none ↔ ∀ e, s.inMap e → ¬ e.holdsAddr a := by
  simp only [State.classOf, Option.map_eq_none_iff, List.find?_eq_none, MapEntry.holds_iff,
    State.mem_addressMap_iff_inMap]

theorem State.inMap_of_classOf {s : State} {a : Addr} {r : Region} (class_ : s.classOf a = some r) :
    ∃ e, s.inMap e ∧ e.region = r ∧ e.holdsAddr a := by
  obtain ⟨e, found, region⟩ := Option.map_eq_some_iff.1 class_
  exact ⟨e, State.mem_addressMap_iff_inMap.1 (List.mem_of_find?_eq_some found), region,
    MapEntry.holds_iff.1 (List.find?_some (p := fun e : MapEntry => e.holds (a.toNat / 4096)) found)⟩

/-! ### A burst that the Bus Port takes at once (R157) -/

section taken
variable {b : Burst} {i : Instr} {s : State}

/-- A burst that meets a free channel goes where its route says, whatever row brings it (R148; log entry 7). -/
theorem exec_of_open (row : i ∈ burstRows b) (room : s.open_ b) : exec i s = .next (s.dispatch b) := by
  obtain ⟨run, free, notFull⟩ := State.open_iff.1 room
  rw [exec_burstRow row run, State.presentBurst_of_admitted (.inl free) notFull, State.putHeld_none free]

theorem State.dispatch_of_controlWrite (route : s.route b = .controlWrite) : s.dispatch b = s.controlWrite b := by
  apply State.dispatch_elim (P := (· = s.controlWrite b)) (b := b) (s := s)
  case controlWrite => exact fun _ => rfl
  all_goals
    intros
    simp_all

theorem State.dispatch_of_refused (route : s.route b = .refused) : s.dispatch b = s.refuse b burstRefused := by
  apply State.dispatch_elim (P := (· = s.refuse b burstRefused)) (b := b) (s := s)
  case refused => exact fun _ => rfl
  all_goals
    intros
    simp_all

theorem State.dispatch_of_windowWrite (route : s.route b = .windowWrite) :
    s.dispatch b = s.refuse b Machine.windowWrite := by
  apply State.dispatch_elim (P := (· = s.refuse b Machine.windowWrite)) (b := b) (s := s)
  case toWindow => exact fun _ => rfl
  all_goals
    intros
    simp_all

end taken

/-- Settles O20: the class is that of the map's entry, and each of these classes is forwarded as it comes. -/
theorem forwardedBurstGoesOutUnchanged : Obligations.ForwardedBurstGoesOutUnchanged := by
  refine ⟨fun a s => ⟨State.classOf_eq_none, fun r => State.inMap_of_classOf⟩,
    fun b i kind s row room class_ => ?_⟩
  have row : i ∈ burstRows b := by
    simp only [List.mem_cons, List.not_mem_nil, or_false] at row
    rcases row with rfl | rfl | rfl <;> simp [burstRows]
  have route : s.route b = .forwarded kind := by
    rw [State.route_eq]
    rcases class_ with ⟨other, rfl⟩ | ⟨control, read, rfl⟩ | ⟨f, c, slots, config, rfl⟩ | ⟨o, slate, rfl⟩
    · simp only [other]
    · simp only [control, read, Bool.false_eq_true, if_false]
    · simp only [slots, State.slotKind, config]
    · simp only [slate]
  rw [exec_of_open row room, State.dispatch_of_forwarded route]
  rfl

/-! ### A device condition set (R188, R189) -/

theorem State.setDevice_quietly (c : Conds) (s : State) : s.quietly [.deviceWord] [] (s.setDevice c) :=
  ⟨State.changesOnly_mono (s.setDevice_changesOnly c) (by simp), s.putDeviceWord_onlyMarks [] _,
    s.putDeviceWord_noticeHolds _⟩

/-- A device condition joins the device word, whose summary positions stay (R188, R191). -/
theorem State.setDevice_deviceWord {c : Conds} {s : State} (holds : s.noticeHolds) (cond : c &&& deviceConds = c) :
    (s.setDevice c).deviceWord = s.deviceWord ||| c := by
  rw [State.setDevice, State.putDeviceWord_deviceWord]
  conv_rhs => rw [holds.1, ← cond]
  refine BitVec.eq_of_getLsbD_eq fun i _ => ?_
  simp only [BitVec.getLsbD_or, BitVec.getLsbD_and]
  cases s.deviceWord.getLsbD i <;> cases c.getLsbD i <;> cases deviceConds.getLsbD i <;>
    cases s.summaries.getLsbD i <;> rfl

/-! ### An answer given at acceptance (R155, R156, R158) -/

section channel
variable {α : Type} {ident : α → BitVec 8} {answer : α → Option BusOut}

/-- The last burst of a channel stays while it is not ready, or an earlier one of its ID is not (R158). -/
theorem sendInOrder_append_of_waiting {t : α} : ∀ (l : List α) (blocked : List (BitVec 8)),
    (answer t = none ∨ ident t ∈ blocked ∨ ∃ x ∈ l, ident x = ident t ∧ answer x = none) →
    sendInOrder ident answer blocked (l ++ [t]) =
      ((sendInOrder ident answer blocked l).1 ++ [t], (sendInOrder ident answer blocked l).2)
  | [], blocked, waits => by
    have waits : answer t = none ∨ ident t ∈ blocked := by simpa using waits
    simp [sendInOrder_of_waiting waits, sendInOrder]
  | x :: l, blocked, waits => by
    by_cases first : answer x = none ∨ ident x ∈ blocked
    · have later := sendInOrder_append_of_waiting l (ident x :: blocked) (by
        rcases waits with none_ | block | ⟨y, m, same, none_⟩
        · exact .inl none_
        · exact .inr (.inl (List.mem_cons_of_mem _ block))
        · rcases List.mem_cons.1 m with rfl | m
          · exact .inr (.inl (by simp [same]))
          · exact .inr (.inr ⟨y, m, same, none_⟩))
      rw [List.cons_append, sendInOrder_of_waiting first, sendInOrder_of_waiting first, later]
      rfl
    · obtain ⟨some_, open_⟩ := not_or.1 first
      obtain ⟨out, ready⟩ := Option.ne_none_iff_exists'.1 some_
      have later := sendInOrder_append_of_waiting l blocked (by
        rcases waits with none_ | block | ⟨y, m, same, none_⟩
        · exact .inl none_
        · exact .inr (.inl block)
        · rcases List.mem_cons.1 m with rfl | m
          · exact absurd none_ some_
          · exact .inr (.inr ⟨y, m, same, none_⟩))
      rw [List.cons_append, sendInOrder_of_ready ready open_, sendInOrder_of_ready ready open_, later]

/-- The last burst of a channel goes up when it is ready and no other of its ID is accepted (R158). -/
theorem sendInOrder_append_of_ready {t : α} {out : BusOut} (ready : answer t = some out) :
    ∀ (l : List α) (blocked : List (BitVec 8)), ident t ∉ blocked → (∀ x ∈ l, ident x ≠ ident t) →
    sendInOrder ident answer blocked (l ++ [t]) =
      ((sendInOrder ident answer blocked l).1, (sendInOrder ident answer blocked l).2 ++ [out])
  | [], blocked, open_, _ => by simp [sendInOrder_of_ready ready open_, sendInOrder]
  | x :: l, blocked, open_, others => by
    obtain ⟨other, others⟩ := List.forall_mem_cons.1 others
    by_cases first : answer x = none ∨ ident x ∈ blocked
    · have later := sendInOrder_append_of_ready ready l (ident x :: blocked) (by simp [open_, Ne.symm other]) others
      rw [List.cons_append, sendInOrder_of_waiting first, sendInOrder_of_waiting first, later]
    · obtain ⟨some_, openX⟩ := not_or.1 first
      obtain ⟨sent, readyX⟩ := Option.ne_none_iff_exists'.1 some_
      rw [List.cons_append, sendInOrder_of_ready readyX openX, sendInOrder_of_ready readyX openX,
        sendInOrder_append_of_ready ready l blocked open_ others]
      rfl

end channel

/-- The beats of a read answered at its acceptance (R155), as the statements write them. -/
theorem zeroBeats_eq (resp : Resp) (b : Burst) : zeroBeats resp b = (List.range b.len).map fun i =>
    ⟨resp, List.replicate (beatBytes b.addr.toNat b.size.val i) 0⟩ := rfl

/-- A burst accepted with its whole answer, before the flush that follows. -/
structure State.OpenedWith (b : Burst) (resp : Resp) (s u : State) : Prop where
  busOut : u.busOut = s.busOut
  reads : u.reads = if b.write then s.reads else s.reads ++ [⟨s.nextSerial, b.id, zeroBeats resp b, true⟩]
  writes : u.writes = if b.write then s.writes ++ [⟨s.nextSerial, b.id, some resp⟩] else s.writes

section opened
variable {b : Burst} {resp : Resp} {s u : State} (opened : s.OpenedWith b resp u)
include opened

theorem State.OpenedWith.sent : s.sent u.flush = (sendInOrder (·.id) ReadTxn.answer [] u.reads).2 ++
    (sendInOrder (·.id) WriteTxn.answer [] u.writes).2 := by
  rw [← State.sent_flush, State.sent, State.sent, opened.busOut]

theorem State.OpenedWith.write_goes (first : s.first b) (write : b.write = true) :
    BusOut.write b.id resp ∈ s.sent u.flush ∧ ∀ x ∈ u.flush.writes, x ∈ s.writes := by
  have others : ∀ x ∈ s.writes, x.id ≠ b.id := by simpa [State.first, write] using first
  have goes := sendInOrder_append_of_ready (ident := (·.id)) (answer := WriteTxn.answer)
    (t := ⟨s.nextSerial, b.id, some resp⟩) rfl s.writes [] List.not_mem_nil others
  rw [opened.sent, State.flush_writes_eq, opened.writes, if_pos write, goes, ← sendWrites_eq]
  exact ⟨by simp, fun x m => (sendWrites_sublist _ _).subset m⟩

theorem State.OpenedWith.read_goes (first : s.first b) (read : b.write = false) :
    BusOut.read b.id (zeroBeats resp b) ∈ s.sent u.flush ∧ ∀ x ∈ u.flush.reads, x ∈ s.reads := by
  have others : ∀ x ∈ s.reads, x.id ≠ b.id := by simpa [State.first, read] using first
  have goes := sendInOrder_append_of_ready (ident := (·.id)) (answer := ReadTxn.answer)
    (t := ⟨s.nextSerial, b.id, zeroBeats resp b, true⟩) rfl s.reads [] List.not_mem_nil others
  rw [opened.sent, State.flush_reads_eq, opened.reads, if_neg (by simp [read]), goes, ← sendReads_eq]
  exact ⟨by simp, fun x m => (sendReads_sublist _ _).subset m⟩

theorem State.OpenedWith.write_waits (write : b.write = true)
    (behind : ∃ x ∈ s.writes, x.id = b.id ∧ x.resp = none) :
    ⟨s.nextSerial, b.id, some resp⟩ ∈ u.flush.writes := by
  obtain ⟨x, m, same, none_⟩ := behind
  rw [State.flush_writes_eq, opened.writes, if_pos write,
    sendInOrder_append_of_waiting _ _ (.inr (.inr ⟨x, m, same, by simp [WriteTxn.answer, none_]⟩))]
  simp

theorem State.OpenedWith.read_waits (read : b.write = false)
    (behind : ∃ x ∈ s.reads, x.id = b.id ∧ x.ready = false) :
    ⟨s.nextSerial, b.id, zeroBeats resp b, true⟩ ∈ u.flush.reads := by
  obtain ⟨x, m, same, none_⟩ := behind
  rw [State.flush_reads_eq, opened.reads, if_neg (by simp [read]),
    sendInOrder_append_of_waiting _ _ (.inr (.inr ⟨x, m, same, by simp [ReadTxn.answer, none_]⟩))]
  simp

/-- The answer goes up at the flush, or waits for the earlier bursts of its ID (R158). -/
theorem State.OpenedWith.answeredAtOnce : s.answeredAtOnce b resp u.flush :=
  ⟨⟨u, rfl, rfl, rfl, opened.busOut, opened.reads, opened.writes⟩, opened.write_goes, opened.read_goes,
    opened.write_waits, opened.read_waits⟩

end opened

/-! ### Refused bursts (R155, R156) -/

/-- A refused burst opened with its answer, and the condition set: what `State.refuse` flushes. -/
theorem State.refuse_spec {b : Burst} {cond : Conds} {s : State} (holds : s.noticeHolds)
    (named : cond &&& deviceConds = cond) : s.answeredAtOnce b .slverr (s.refuse b cond) ∧
      (s.refuse b cond).deviceWord = s.deviceWord ||| cond ∧
      s.quietly [.deviceWord, .reads, .writes, .serial, .busOut] [] (s.refuse b cond) := by
  have opens : ∃ u : State, s.refuse b cond = (u.setDevice cond).flush ∧ s.OpenedWith b .slverr u ∧
      s.quietly [.deviceWord, .reads, .writes, .serial, .busOut] [] u ∧ u.deviceWord = s.deviceWord := by
    unfold State.refuse
    dsimp only
    by_cases write : b.write = true
    · rw [if_pos write]
      refine ⟨_, rfl, ⟨rfl, ?_, ?_⟩, State.quietly_of_eq [] holds (fun p named => ?_) rfl rfl rfl rfl rfl, rfl⟩
      · rw [if_pos write]; rfl
      · rw [if_pos write]; rfl
      · cases p <;> simp_all [State.same, State.ref]
    · rw [if_neg write]
      refine ⟨_, rfl, ⟨rfl, ?_, ?_⟩, State.quietly_of_eq [] holds (fun p named => ?_) rfl rfl rfl rfl rfl, rfl⟩
      · rw [if_neg write]; rfl
      · rw [if_neg write]; rfl
      · cases p <;> simp_all [State.same, State.ref]
  obtain ⟨u, refused, opened, quiet, word⟩ := opens
  have opened' : s.OpenedWith b .slverr (u.setDevice cond) :=
    ⟨by simpa using opened.busOut, by simpa using opened.reads, by simpa using opened.writes⟩
  rw [refused]
  refine ⟨opened'.answeredAtOnce, ?_, State.quietly_trans quiet (State.quietly_trans
    (State.quietly_mono (u.setDevice_quietly cond) (by simp) (by simp))
    (State.quietly_mono (State.flush_quietly (u.setDevice_quietly cond).2.2) (by simp) (by simp)))⟩
  rw [State.flush_deviceWord, State.setDevice_deviceWord quiet.2.2 named, word]

/-- Settles O29: the route is a refusal by the burst's kind, or by its being a write into an output window. -/
theorem refusedBurstIsAnsweredSlverr : Obligations.RefusedBurstIsAnsweredSlverr := by
  intro b i s row room holds inWindow bad
  have row : i ∈ burstRows b := by
    rcases List.mem_pair.1 row with rfl | rfl <;> simp [burstRows]
  have answered {cond : Conds} (named : cond &&& deviceConds = cond) (goes : s.dispatch b = s.refuse b cond) :
      ∃ t, exec i s = .next t ∧ t.noticeHolds ∧ t.deviceWord = s.deviceWord ||| cond ∧
        s.changesOnly [.deviceWord, .class3, .reads, .writes, .serial, .busOut] t ∧ s.onlyMarks [] t ∧
        s.answeredAtOnce b .slverr t := by
    obtain ⟨up, word, only, marks, holds'⟩ := State.refuse_spec (b := b) holds named
    exact ⟨_, (exec_of_open row room).trans (congrArg _ goes), holds', word,
      State.changesOnly_mono only (by simp), marks, up⟩
  by_cases kind : b.kind = .incr
  · obtain ⟨write, o, window⟩ := bad.resolve_left (not_not_intro kind)
    rw [if_neg (not_not_intro kind)]
    refine answered (cond := 0x0004) (by decide) (State.dispatch_of_windowWrite ?_)
    rw [State.route_eq, window]
    simp only [kind, write, ne_eq, not_true_eq_false, if_false, if_true]
  · rw [if_pos kind]
    refine answered (cond := 0x0008) (by decide) (State.dispatch_of_refused ?_)
    rw [State.route_eq]
    rcases inWindow with ⟨f, ingest⟩ | ⟨o, window⟩
    · simp only [ingest, ne_eq, kind, not_false_eq_true, if_true]
    · simp only [window, ne_eq, kind, not_false_eq_true, if_true]

end Sys2Proof.Machine
end

section
/-! The arbiter's grant by classes (R150, R151, R160, R161, R162, R168). -/

namespace Sys2Proof.Machine

/-! ### What holds a request (R151, R168) -/

theorem Forwarded.readsOver_iff {base place n : Nat} {x : Forwarded} : x.readsOver base (some (place, n)) = true ↔
    x.kind = .control ∧ x.burst.write = false ∧ x.burst.low < base + place + n ∧ base + place < x.burst.stop := by
  simp [Forwarded.readsOver, Burst.touches, and_assoc]

theorem RecordSel.offset_eq (r : RecordSel) : r.offset = recordPlace r := by cases r <;> rfl

theorem traceOffset_eq (o : OutId) (i : Nat) : traceOffset o i = tracePlace o i := rfl

/-- A granted record's or trace entry's write that a read overlaps (R151). -/
theorem Work.readsOver_written {base : Nat} {x : Forwarded} {w : Work} : x.readsOver base w.written = true ↔
    (∃ r bytes cells, w = .record r bytes cells ∧ x.readsOver base (some (recordPlace r, 64)) = true) ∨
      ∃ o i bytes, w = .trace o i bytes ∧ x.readsOver base (some (tracePlace o i, 16)) = true := by
  cases w with
  | record r bytes cells => simp [Work.written, RecordSel.offset_eq]
  | trace o i bytes => simp [Work.written, traceOffset_eq]
  | bus | fetch | result | table | discarded => simp [Work.written, Forwarded.readsOver]

theorem State.holdsRead_iff {x : Forwarded} {s : State} : s.holdsRead x = true ↔ s.readHeld x := by
  simp only [State.holdsRead, List.any_eq_true, Work.readsOver_written, Forwarded.readsOver_iff]
  rfl

theorem State.mem_forwardedOut {x : Forwarded} {s : State} :
    x ∈ s.forwardedOut ↔ ∃ g ∈ s.granted, g.work = .bus x := by
  have forwarded (g : Granted) : g.forwarded = some x ↔ g.work = .bus x := by
    unfold Granted.forwarded
    cases g.work <;> simp
  simp only [State.forwardedOut, List.mem_filterMap, forwarded]

theorem State.holdsThird_iff {h : Housekeeping} {s : State} : s.holdsThird h = true ↔ s.thirdHeld h := by
  have reads (place n : Nat) : (s.forwardedOut.any fun x => x.readsOver s.controlBase (some (place, n))) = true ↔
      ∃ g ∈ s.granted, ∃ x, g.work = .bus x ∧ s.readsBytes x place n := by
    simp only [List.any_eq_true, State.mem_forwardedOut, Forwarded.readsOver_iff, State.readsBytes]
    constructor
    · rintro ⟨x, ⟨g, m, work⟩, overlaps⟩
      exact ⟨g, m, x, work, overlaps⟩
    · rintro ⟨g, m, x, work, overlaps⟩
      exact ⟨x, ⟨g, m, work⟩, overlaps⟩
  cases h with
  | record r =>
    have written : (Housekeeping.record r).written = some (recordPlace r, 64) := by rw [← RecordSel.offset_eq]; rfl
    simp only [State.holdsThird, written]
    exact reads _ _
  | trace o i bytes => exact reads _ _
  | result c word =>
    simp only [State.holdsThird, State.thirdHeld, List.any_eq_true, List.mem_append, State.mem_forwardedOut,
      List.contains_iff_mem]
  | table => simp [State.holdsThird, State.thirdHeld]

/-! ### The priorities (R161) -/

section grant
variable {s : State}

theorem exec_grant (run : s.resetting = false) : exec .memoryPortGrant s = .next s.grant :=
  State.unlessReset_of_running run fun s => .next s.grant

theorem State.grant_of_full (full : 64 ≤ s.granted.length) : s.grant = s := if_pos full

/-- Round robin: the first output with a request, from the pointer on (R161). -/
theorem State.nextFetch_of_first {k : Fin 4} {x : Fetch} {rest : List Fetch}
    (head : s.class1[s.pointer + k] = x :: rest) (before : ∀ j : Fin 4, j < k → s.class1[s.pointer + j] = []) :
    s.nextFetch = some (s.pointer + k) := by
  have from_ : fromPointer s.pointer = (List.finRange 4).map (s.pointer + ·) := by
    simp [fromPointer, List.finRange_succ]
  rw [State.nextFetch, from_, List.find?_map, Option.map_eq_some_iff]
  refine ⟨k, List.find?_eq_some_iff_getElem.2 ⟨by simp [head, -Fin.getElem_fin], k.val,
    by simp, by simp, ?_⟩, rfl⟩
  intro j below
  have empty := before ⟨j, by omega⟩ below
  simp only [List.getElem_finRange, Fin.cast_mk, Function.comp]
  simp [empty, -Fin.getElem_fin]

theorem State.nextFetch_of_empty (empty : ∀ o : OutId, s.class1[o] = []) : s.nextFetch = none := by
  simp [State.nextFetch, empty, -Fin.getElem_fin]

theorem State.not_full (room : s.granted.length < 64) : ¬ Config.grantLimit ≤ s.granted.length := Nat.not_le.2 room

variable (room : s.granted.length < 64)
include room

theorem State.grant_of_fetch {o : OutId} (next : s.nextFetch = some o) : s.grant = s.grantFetch o := by
  rw [State.grant, if_neg (State.not_full room), next]

variable (empty : ∀ o : OutId, s.class1[o] = [])
include empty

theorem State.grant_of_forwarded {x : Forwarded} {rest : List Forwarded} (head : s.class2 = x :: rest)
    (free : ¬ s.readHeld x) : s.grant = s.grantForwarded x rest := by
  have free : ¬ s.holdsRead x = true := fun held => free (State.holdsRead_iff.1 held)
  rw [State.grant, if_neg (State.not_full room), State.nextFetch_of_empty empty, head]
  exact if_neg free

/-- Class 3 has its turn when class 2 is empty or its head is held (R151, R161). -/
theorem State.grant_of_third (blocked : s.class2 = [] ∨ ∃ x rest, s.class2 = x :: rest ∧ s.readHeld x) :
    s.grant = s.offerThird := by
  rw [State.grant, if_neg (State.not_full room), State.nextFetch_of_empty empty]
  rcases blocked with none_ | ⟨x, rest, head, held⟩
  · rw [none_]
  · rw [head]
    exact if_pos (State.holdsRead_iff.2 held)

end grant

/-- Settles O30: the arbiter's decision, class by class. -/
theorem grantsByPriority : Obligations.GrantsByPriority := by
  refine ⟨fun s run full => ?full, fun s o k x rest run room first head before => ?fetch,
    fun s x rest run room empty head free => ?forwarded, fun s run empty blocked none_ => ?nothing⟩
  case full => rw [exec_grant run, State.grant_of_full full]
  case fetch =>
    subst first
    rw [exec_grant run, State.grant_of_fetch room (State.nextFetch_of_first head before), State.grantFetch]
    simp only [head]
    rfl
  case forwarded =>
    rw [exec_grant run, State.grant_of_forwarded room empty head free]
    rfl
  case nothing =>
    rw [exec_grant run]
    by_cases room : s.granted.length < 64
    · rw [State.grant_of_third room empty blocked, State.offerThird, none_]
    · rw [State.grant_of_full (Nat.not_lt.1 room)]

/-! ### Class 3 (R162, R186, R195) -/

/-- The state with other cells. -/
def State.withCells (cells : Vector Cell 16) (s : State) : State := { s with cells := cells }

/-- A command whose IDENTIFY has moved on (R186). -/
def ActiveCommand.identifyAt (x : IdentifyStage) (a : ActiveCommand) : ActiveCommand := { a with identify := x }

/-- A command that changes in its ACTIVE cell marks nothing (R168). -/
theorem State.putCell_of_active {c : CellId} {s : State} {a : ActiveCommand} (active : s.cells[c] = some a)
    (x : ActiveCommand) : s.putCell c (some x) = s.withCells (s.cells.set c (some x)) := by
  simp [State.putCell, active, -Fin.getElem_fin, State.withCells]

theorem State.setIdentify_eq (x : IdentifyStage) (c : CellId) (s : State) :
    s.setIdentify x c = s.withCells (s.cells.set c (s.cells[c].map (·.identifyAt x))) := by
  unfold State.setIdentify
  cases active : s.cells[c] with
  | none =>
    have same : s.cells.set c.val none c.isLt = s.cells := active ▸ vector_set_same s.cells c
    rw [Option.map_none, same]
    rfl
  | some a => exact State.putCell_of_active active _

theorem State.setIdentify_cells (x : IdentifyStage) (d c : CellId) (s : State) :
    (s.setIdentify x d).cells[c] = if c = d then s.cells[c].map (·.identifyAt x) else s.cells[c] := by
  rw [State.setIdentify_eq]
  split
  · next same =>
    subst same
    exact vector_set_self ..
  · next other => exact vector_set_other _ _ _ _ other

/-- The IDENTIFY of several cells moved on in turn (R186). -/
theorem State.foldl_setIdentify (x : IdentifyStage) : ∀ (l : List CellId) (s : State),
    ∃ cells : Vector Cell 16, l.foldl (fun s c => s.setIdentify x c) s = s.withCells cells ∧
      ∀ c : CellId, cells[c] = if c ∈ l then s.cells[c].map (·.identifyAt x) else s.cells[c]
  | [], s => ⟨s.cells, rfl, fun c => by simp⟩
  | d :: l, s => by
    obtain ⟨cells, moved, each⟩ := State.foldl_setIdentify x l (s.setIdentify x d)
    refine ⟨cells, by rw [List.foldl_cons, moved, State.setIdentify_eq]; rfl, fun c => ?_⟩
    rw [each c, State.setIdentify_cells]
    by_cases same : c = d
    · subst same
      cases s.cells[c] <;> simp [ActiveCommand.identifyAt]
    · simp [same]

theorem State.mem_identifying {s : State} {c : CellId} :
    c ∈ s.identifying ↔ ∃ a, s.cells[c] = some a ∧ a.identify = .waiting := by
  have all : c ∈ allCells := by fin_cases c <;> simp [allCells]
  simp only [State.identifying, List.mem_filter, all, true_and]
  cases s.cells[c] <;> simp

/-- The commands whose IDENTIFY the grant of a record answers (R186). -/
def State.answering (r : RecordSel) (s : State) : List CellId := if r = .device then s.identifying else []

theorem State.mem_answering {r : RecordSel} {s : State} {c : CellId} :
    c ∈ s.answering r ↔ r = .device ∧ ∃ a, s.cells[c] = some a ∧ a.identify = .waiting := by
  unfold State.answering
  split
  · next device => simp only [State.mem_identifying, device, true_and]
  · next other => simp [other]

/-- The pieces that the count of a record and the IDENTIFY commands of its grant stand in (R186, R195). -/
def RecordSel.countParts : RecordSel → List Part
  | .device => .deviceUpdates :: allCells.map .cell
  | .feed f => [.feed f]
  | .output o => [.output o]

section record
variable (r : RecordSel) (s : State)

theorem State.countUpdate_changesOnly : s.changesOnly r.countParts (s.countUpdate r) := by
  intro p named
  cases r <;> cases p <;> simp_all [State.same, State.ref, State.countUpdate, RecordSel.countParts, vector_set_other]

theorem State.recordContent_length : (s.recordContent r).length = 64 := by
  cases r with
  | device => exact (length_of_fields s.deviceRecord_eq).trans (by simp)
  | feed f => exact (length_of_fields s.feeds[f].record_eq).trans (by simp)
  | output o => exact (length_of_fields s.outputs[o].record_eq).trans (by simp)

/-- The update count of a record (R195). -/
def State.updates : BitVec 16 :=
  match r with
  | .device => s.deviceUpdates
  | .feed f => s.feeds[f].updates
  | .output o => s.outputs[o].updates

/-- The last two bytes of a record are its update count (R205). -/
theorem State.recordContent_updates : holdsAt (s.recordContent r) 62 2 (s.updates r).toNat := by
  cases r with
  | device =>
    have laidOut := holdsFields_of_eq s.deviceRecord_eq
    simp only [holdsFields, Nat.reduceAdd] at laidOut
    obtain ⟨-, -, -, -, -, -, -, -, -, -, -, updates, -⟩ := laidOut
    exact updates
  | feed f =>
    have laidOut := holdsFields_of_eq s.feeds[f].record_eq
    simp only [holdsFields, Nat.reduceAdd] at laidOut
    obtain ⟨-, -, -, -, -, -, -, -, -, -, -, -, -, -, -, updates, -⟩ := laidOut
    exact updates
  | output o =>
    have laidOut := holdsFields_of_eq s.outputs[o].record_eq
    simp only [holdsFields, Nat.reduceAdd] at laidOut
    obtain ⟨-, -, -, -, -, -, -, -, -, -, -, -, -, -, -, -, -, -, -, -, -, updates, -⟩ := laidOut
    exact updates

/-- The grant of a record's write: the count, the cells of the commands it answers, and the burst. -/
theorem State.grantRecord_eq : ∃ cells : Vector Cell 16,
    s.grantRecord r = ((s.countUpdate r).withCells cells).addGranted class3Id true
      (.record r ((s.grantRecord r).recordContent r) (s.answering r)) ∧
    (∀ c : CellId, cells[c] = if c ∈ s.answering r then s.cells[c].map (·.identifyAt .granted)
      else s.cells[c]) := by
  obtain ⟨cells, set_, each⟩ := State.foldl_setIdentify .granted (s.answering r) (s.countUpdate r)
  rw [State.countUpdate_cells] at each
  have content (t : State) (n : BitVec 9) (w : Work) :
      (t.addGranted n true w).recordContent r = t.recordContent r := by cases r <;> rfl
  have granted : s.grantRecord r = ((s.countUpdate r).withCells cells).addGranted class3Id true
      (.record r (((s.countUpdate r).withCells cells).recordContent r) (s.answering r)) := by
    rw [← set_]
    rfl
  refine ⟨cells, ?_, each⟩
  rw [granted, content]

end record

theorem State.grantRecord_changesOnly (r : RecordSel) (s : State) :
    s.changesOnly (.granted :: r.countParts) (s.grantRecord r) := by
  obtain ⟨cells, granted, each⟩ := s.grantRecord_eq r
  rw [granted]
  refine State.changesOnly_trans (State.changesOnly_mono (s.countUpdate_changesOnly r) (List.subset_cons_self ..)) ?_
  intro p named
  cases p with
  | cell c =>
    refine (each c).trans ?_
    rw [State.countUpdate_cells, if_neg]
    intro m
    obtain ⟨rfl, -⟩ := State.mem_answering.1 m
    have all : c ∈ allCells := by fin_cases c <;> simp [allCells]
    exact named (by simp [RecordSel.countParts, all])
  | granted => simp at named
  | _ => simp [State.same, State.ref, State.withCells]

/-- The grant of a result word's write: its cell, which stays ACTIVE, and the burst (R170). -/
theorem State.grantResult_eq (c : CellId) (word : Word) (s : State) : s.grantResult c word =
    (s.withCells (s.cells.set c (s.cells[c].map fun a : ActiveCommand => { a with stage := .granted }))).addGranted
      class3Id true (.result c word) := by
  unfold State.grantResult
  cases active : s.cells[c] with
  | none =>
    have same : s.cells.set c.val none c.isLt = s.cells := active ▸ vector_set_same s.cells c
    rw [Option.map_none, same]
    rfl
  | some a =>
    dsimp only
    rw [State.putCell_of_active active]
    rfl

theorem State.setClass3_changesOnly (s : State) (rest : List Housekeeping) :
    s.changesOnly [.class3] { s with class3 := rest } := by
  intro p named
  cases p <;> simp_all [State.same, State.ref]

theorem State.addGranted_granted (id : BitVec 9) (write : Bool) (work : Work) (s : State) :
    (s.addGranted id write work).granted = s.granted ++ [⟨id, write, work⟩] := rfl

theorem State.addGranted_changesOnly (id : BitVec 9) (write : Bool) (work : Work) (s : State) :
    s.changesOnly [.granted] (s.addGranted id write work) := by
  intro p named
  cases p <;> simp_all [State.same, State.ref]


section granted
variable (r : RecordSel) (s : State)

theorem State.grantRecord_cells (c : CellId) : (s.grantRecord r).cells[c] =
    s.cells[c].map fun a => if r = .device ∧ a.identify = .waiting then { a with identify := .granted } else a := by
  obtain ⟨cells, granted, each⟩ := s.grantRecord_eq r
  have own : (s.grantRecord r).cells[c] = cells[c] := by
    rw [granted]
    rfl
  rw [own, each]
  cases active : s.cells[c] with
  | none => simp
  | some a =>
    have answered : c ∈ s.answering r ↔ r = .device ∧ a.identify = .waiting := by
      simp [State.mem_answering, active, -Fin.getElem_fin]
    simp only [answered, Option.map_some]
    split <;> rfl

/-- The record's count has advanced, and nothing else of its feed or output (R195). -/
theorem State.grantRecord_counts :
    match r with
    | .device => (s.grantRecord r).deviceUpdates = s.deviceUpdates + 1
    | .feed f => (s.grantRecord r).feeds[f] = { s.feeds[f] with updates := s.feeds[f].updates + 1 }
    | .output o => (s.grantRecord r).outputs[o] = { s.outputs[o] with updates := s.outputs[o].updates + 1 } := by
  obtain ⟨cells, granted, -⟩ := s.grantRecord_eq r
  rw [granted]
  cases r with
  | device => rfl
  | feed f => exact vector_set_self ..
  | output o => exact vector_set_self ..

/-- The count that the granted record shows is the one that has just advanced (R195). -/
theorem State.grantRecord_updates : (s.grantRecord r).updates r = s.updates r + 1 := by
  have counts := s.grantRecord_counts r
  cases r with
  | device => exact counts
  | feed f => exact congrArg Feed.updates counts
  | output o => exact congrArg Output.updates counts

theorem State.grantRecord_granted : (s.grantRecord r).granted =
    s.granted ++ [⟨260, true, .record r ((s.grantRecord r).recordContent r) (s.answering r)⟩] := by
  obtain ⟨cells, granted, -⟩ := s.grantRecord_eq r
  have before : ((s.countUpdate r).withCells cells).granted = s.granted := s.countUpdate_granted r
  refine (congrArg State.granted granted).trans ?_
  rw [State.addGranted_granted, before]
  rfl

end granted

/-- Settles O31: a held request waits, and each kind of request is granted as its rule says. -/
theorem grantsOfClassThree : Obligations.GrantsOfClassThree := by
  intro s h rest run room empty blocked head
  have third : s.grant = if s.holdsThird h then s else s.grantThird h rest := by
    rw [State.grant_of_third room empty blocked, State.offerThird, head]
  refine ⟨fun held => ?held, fun free => ⟨s.grantThird h rest, ?row, ?_⟩⟩
  case held => rw [exec_grant run, third, if_pos (State.holdsThird_iff.2 held)]
  case row => rw [exec_grant run, third, if_neg fun held => free (State.holdsThird_iff.1 held)]
  generalize queued : ({ s with class3 := rest } : State) = u
  have only : s.changesOnly [.class3] u := queued ▸ s.setClass3_changesOnly rest
  have class3 : u.class3 = rest := queued ▸ rfl
  have cells (c : CellId) : u.cells[c] = s.cells[c] := only (.cell c) (by simp)
  have granted : u.granted = s.granted := only .granted (by simp)
  have burst (write : Bool) (work : Work) : s.changesOnly [.class3, .granted] (u.addGranted class3Id write work) :=
    State.changesOnly_trans (State.changesOnly_mono only (by simp))
      (State.changesOnly_mono (State.addGranted_changesOnly _ _ _ _) (by simp))
  cases h with
  | trace o i bytes =>
    rw [State.grantThird, queued]
    exact ⟨class3, by rw [State.addGranted_granted, granted]; rfl, burst _ _⟩
  | table k page =>
    rw [State.grantThird, queued]
    exact ⟨class3, by rw [State.addGranted_granted, granted]; rfl, burst _ _⟩
  | result c word =>
    rw [State.grantThird, queued]
    dsimp only
    have cell : (u.grantResult c word).cells[c] =
        s.cells[c].map fun a : ActiveCommand => { a with stage := .granted } := by
      rw [State.grantResult_eq, State.addGranted_cells, State.withCells, vector_set_self, cells]
    refine ⟨?_, ?_, fun a active => ?_, fun idle => ?_, ?_⟩
    · rw [State.grantResult_eq]
      exact class3
    · rw [State.grantResult_eq, State.addGranted_granted]
      exact congrArg (· ++ _) granted
    · rw [cell, active, Option.map_some]
    · rw [cell, idle, Option.map_none]
    · refine State.changesOnly_trans (State.changesOnly_mono only (by simp)) ?_
      rw [State.grantResult_eq]
      refine State.changesOnly_trans (t := u.withCells _) (fun p named => ?_)
        (State.changesOnly_mono (State.addGranted_changesOnly _ _ _ _) (by simp))
      cases p <;> simp_all [State.same, State.ref, State.withCells, vector_set_other]
  | record r =>
    rw [State.grantThird, queued]
    dsimp only
    have kept := State.changesOnly_trans (State.changesOnly_mono only (qs := [.class3, .granted] ++ r.countParts)
      (by simp)) (State.changesOnly_mono (u.grantRecord_changesOnly r) (by simp))
    have counts := u.grantRecord_counts r
    have shown := (u.grantRecord r).recordContent_updates r
    rw [State.grantRecord_updates] at shown
    refine ⟨?_, ⟨u.answering r, ?_, fun c => ?_⟩, State.recordContent_length r _, ?_, ?_, fun c a active => ?_,
      fun c idle => ?_, ?_⟩
    · rw [(u.grantRecord_changesOnly r) .class3 (by cases r <;> simp [RecordSel.countParts]), class3]
    · rw [State.grantRecord_granted, granted]
    · simp only [State.mem_answering, cells]
    · subst queued
      cases r <;> exact counts
    · subst queued
      cases r <;> exact shown
    · rw [State.grantRecord_cells, cells, active, Option.map_some]
    · rw [State.grantRecord_cells, cells, idle, Option.map_none]
    · cases r <;> exact kept

end Sys2Proof.Machine
end

section
/-! The responses at the Memory Port to forwarded bursts, status records and result words (R150, R163, R168, R170). -/

namespace Sys2Proof.Machine

/-! ### The result word of a cell (R170) -/

section due
variable {c : CellId} {a : ActiveCommand} {s : State} (active : s.cells[c] = some a)
include active

theorem State.requestResult_of_due {r : ResultCode × Byte} (settled : a.settled = some r)
    (answered : a.hostAnswered = true) (stage : a.stage = .unrequested) :
    (s.requestResult c).cells[c] = some { a with stage := .waiting } ∧
      (s.requestResult c).class3 = s.class3 ++ [.result c (resultWord r.1 a.tag r.2)] := by
  have requested : s.requestResult c =
      { s.putCell c (some { a with stage := .waiting }) with
        class3 := (s.putCell c (some { a with stage := .waiting })).class3 ++
          [.result c (resultWord r.1 a.tag r.2)] } := by
    simp only [State.requestResult, active, settled, answered, stage]
  rw [requested, State.putCell_of_active active]
  exact ⟨vector_set_self .., rfl⟩

theorem State.requestResult_of_unsettled (unsettled : a.settled = none) : s.requestResult c = s := by
  simp only [State.requestResult, active, unsettled]

theorem State.hostAnswered_eq : s.hostAnswered c =
    (s.withCells (s.cells.set c (some { a with hostAnswered := true }))).requestResult c := by
  unfold State.hostAnswered
  rw [active]
  dsimp only
  rw [State.putCell_of_active active]

theorem State.hostAnswered_of_due {r : ResultCode × Byte} (settled : a.settled = some r)
    (stage : a.stage = .unrequested) :
    (s.hostAnswered c).cells[c] = some { a with hostAnswered := true, stage := .waiting } ∧
      (s.hostAnswered c).class3 = s.class3 ++ [.result c (resultWord r.1 a.tag r.2)] := by
  rw [State.hostAnswered_eq active]
  exact State.requestResult_of_due (a := { a with hostAnswered := true }) (vector_set_self ..) settled rfl stage

theorem State.hostAnswered_of_unsettled (unsettled : a.settled = none) :
    (s.hostAnswered c).cells[c] = some { a with hostAnswered := true } ∧ (s.hostAnswered c).class3 = s.class3 := by
  rw [State.hostAnswered_eq active,
    State.requestResult_of_unsettled (a := { a with hostAnswered := true }) (vector_set_self ..) unsettled]
  exact ⟨vector_set_self .., rfl⟩

end due

theorem State.hostAnswered_changesOnly (c : CellId) (s : State) :
    s.changesOnly [.cell c, .class3] (s.hostAnswered c) := by
  unfold State.hostAnswered
  split
  · exact s.changesOnly_refl _
  · exact State.changesOnly_trans (s.putCell_changesOnly c _) (State.requestResult_changesOnly c _)

/-! ### Forwarded bursts (R150, R170) -/

theorem State.replyRow_of_bus {r : Reply} {g : Granted} {x : Forwarded} {s : State} (answers : s.answers r g)
    (work : g.work = .bus x) : replyRow r s = .next (if x.burst.write then
      (s.without r).busWritten x (replyResp r) else (s.without r).busReadBack x (replyBeats r)) := by
  rw [State.replyRow_of_answers answers, work]
  rfl

/-- A write of class Other, or of the control block without a command of its own, does nothing but go up. -/
theorem State.busEffect_of_plain {x : Forwarded} (plain : x.kind = .other ∨ (x.kind = .control ∧ x.cells = []))
    (resp : Resp) (s : State) : s.busEffect x resp = s := by
  unfold State.busEffect
  rcases plain with other | ⟨control, none_⟩
  · rw [other]
  · rw [control, none_]
    rfl

/-- Settles O33: the response to a read or a write goes up by the flush; that to a command's write tells its cell. -/
theorem forwardedResponseGoesUp : Obligations.ForwardedResponseGoesUp := by
  refine ⟨fun id beats g x s answers work read => ?read, fun id resp g x s answers work write plain => ?plain,
    fun id resp g x c a s answers work write kind cells active => ?command⟩
  case read =>
    refine (State.replyRow_of_bus answers work).trans ?_
    rw [if_neg (by simp [read])]
    rfl
  case plain =>
    refine (State.replyRow_of_bus answers work).trans ?_
    rw [if_pos write, State.busWritten, State.busEffect_of_plain plain]
    rfl
  case command =>
    have effect (u : State) : u.busEffect x resp = u.hostAnswered c := by
      rw [State.busEffect, kind, cells]
      rfl
    obtain ⟨row, up, granted, only, -⟩ := State.replyRow_of_written (ps := [.cell c, .class3]) answers work write
      (fun u => by rw [effect]; exact u.hostAnswered_changesOnly c) (by simp [replyParts])
    have told : ∀ t, t = (s.without (.write id resp)).busWritten x resp →
        t.cells = (((s.without (.write id resp)).answerWrite x.serial resp).hostAnswered c).cells ∧
        t.class3 = (((s.without (.write id resp)).answerWrite x.serial resp).hostAnswered c).class3 := by
      rintro t rfl
      rw [← effect]
      exact ⟨rfl, rfl⟩
    obtain ⟨toldCells, toldClass3⟩ := told _ rfl
    have active : ((s.without (.write id resp)).answerWrite x.serial resp).cells[c] = some a := active
    refine ⟨_, row, up, granted, only, fun code detail settled _ stage => ?_, fun unsettled => ?_⟩
    · rw [toldCells, toldClass3]
      exact State.hostAnswered_of_due active settled stage
    · rw [toldCells, toldClass3]
      exact State.hostAnswered_of_unsettled active unsettled

/-! ### Status records (R163, R186) -/

theorem State.identified_changesOnly (c : CellId) (s : State) : s.changesOnly [.cell c, .class3] (s.identified c) := by
  unfold State.identified
  split
  · exact s.changesOnly_refl _
  · split
    · refine State.changesOnly_trans ?_ (State.settle_changesOnly c _ _ _)
      unfold State.setIdentify
      split
      · exact s.changesOnly_refl _
      · exact s.putCell_changesOnly c _
    · exact s.changesOnly_refl _

theorem State.identified_of_granted {c : CellId} {a : ActiveCommand} {s : State} (active : s.cells[c] = some a)
    (stage : a.identify = .granted) (unsettled : a.settled = none) :
    (s.identified c).cells[c] = some ((a.identifyAt .no).settledAs .done 0) := by
  have moved : (s.setIdentify .no c).cells[c] = some (a.identifyAt .no) := by
    rw [State.setIdentify_cells, if_pos rfl, active, Option.map_some]
  have settles : s.identified c = (s.setIdentify .no c).settle c .done 0 := by
    unfold State.identified
    simp only [active, stage, unsettled]
    rfl
  rw [settles]
  exact State.settle_cell_settledAs moved .done 0

theorem State.identified_of_settled {c : CellId} {a : ActiveCommand} {s : State} (active : s.cells[c] = some a)
    (settled : a.settled ≠ none) : s.identified c = s := by
  unfold State.identified
  simp [active, settled, -Fin.getElem_fin]

theorem State.recordWritten_changesOnly : ∀ (cells : List CellId) (s : State),
    s.changesOnly (.class3 :: cells.map .cell) (s.recordWritten cells)
  | [], s => s.changesOnly_refl _
  | c :: cells, s => State.changesOnly_trans (State.changesOnly_mono (s.identified_changesOnly c) (by simp))
      (State.changesOnly_mono (State.recordWritten_changesOnly cells (s.identified c)) (by simp))

theorem State.recordWritten_of_settled {c : CellId} {a : ActiveCommand} (settled : a.settled ≠ none) :
    ∀ (cells : List CellId) (s : State), s.cells[c] = some a → (s.recordWritten cells).cells[c] = some a
  | [], _, active => active
  | d :: cells, s, active => by
    refine State.recordWritten_of_settled settled cells (s.identified d) ?_
    by_cases same : c = d
    · subst same
      rwa [State.identified_of_settled active settled]
    · rw [s.identified_changesOnly d (.cell c) (by simp [same]), active]

/-- Each IDENTIFY that the grant answers is settled DONE, once (R186). -/
theorem State.recordWritten_of_granted {c : CellId} {a : ActiveCommand} (stage : a.identify = .granted)
    (unsettled : a.settled = none) : ∀ (cells : List CellId) (s : State), c ∈ cells → s.cells[c] = some a →
    (s.recordWritten cells).cells[c] = some ((a.identifyAt .no).settledAs .done 0)
  | [], _, m, _ => absurd m List.not_mem_nil
  | d :: cells, s, m, active => by
    by_cases same : c = d
    · subst same
      exact State.recordWritten_of_settled (by simp [ActiveCommand.settledAs]) cells (s.identified c)
        (State.identified_of_granted active stage unsettled)
    · refine State.recordWritten_of_granted stage unsettled cells (s.identified d)
        ((List.mem_cons.1 m).resolve_left same) ?_
      rw [s.identified_changesOnly d (.cell c) (by simp [same]), active]

/-! ### Result words (R168, R170, R187) -/

section result
variable {c : CellId} {a : ActiveCommand} {s : State} (active : s.cells[c] = some a)
include active

theorem State.resultWritten_of_done (done : a.abortDue = false) : s.resultWritten c = s.putCell c none := by
  simp only [State.resultWritten, active, done, Bool.false_eq_true, if_false]

theorem State.resultWritten_of_abort (abort : a.abortDue = true) : s.resultWritten c =
    (s.putCell c (some { a with settled := some (.aborted, 0), stage := .unrequested, abortDue := false })).requestResult
      c := by
  simp only [State.resultWritten, active, abort, if_true]

/-- A cell that returns to IDLE marks the device record (R168). -/
theorem State.putCell_none_marked : (s.putCell c none).marked .device := by
  simp only [State.putCell, active, Option.isSome_none, Option.isSome_some, Bool.false_eq_true, if_false]
  exact State.mark_marked ..

end result

theorem State.resultWritten_changesOnly (c : CellId) (s : State) :
    s.changesOnly [.cell c, .class3] (s.resultWritten c) := by
  unfold State.resultWritten
  split
  · exact s.changesOnly_refl _
  · split
    · exact State.changesOnly_trans (s.putCell_changesOnly c _) (State.requestResult_changesOnly c _)
    · exact s.putCell_changesOnly c none

/-- Settles O36: the answers to the writes of a record, of a trace entry and of a result word. -/
theorem recordAndResultResponses : Obligations.RecordAndResultResponses := by
  refine ⟨fun resp g r bytes cells s answers work => ?record, fun resp g o pos bytes s answers work => ?trace,
    fun resp g c w a s answers work active => ?result⟩
  case record =>
    have row : exec (.statusRecordWriteResponse resp) s =
        .next ((s.without (.write 260 resp)).recordWritten cells) :=
      (State.replyRow_of_answers answers).trans (by rw [work]; rfl)
    refine ⟨_, row, ?_, fun none_ => by rw [none_]; rfl, fun c a m active stage unsettled => ?_⟩
    · exact State.changesOnly_trans (State.changesOnly_mono (State.without_changesOnly _ s) (by simp))
        (State.changesOnly_mono (State.recordWritten_changesOnly cells _) (by simp))
    · exact State.recordWritten_of_granted stage unsettled cells (s.without (.write 260 resp)) m active
  case trace => exact (State.replyRow_of_answers answers).trans (by rw [work]; rfl)
  case result =>
    have row : exec (.resultWordResponse resp) s = .next ((s.without (.write 260 resp)).resultWritten c) :=
      (State.replyRow_of_answers answers).trans (by rw [work]; rfl)
    have active : (s.without (.write 260 resp)).cells[c] = some a := active
    refine ⟨_, row, ?_, fun done => ?_, fun abort answered => ?_⟩
    · exact State.changesOnly_trans (State.changesOnly_mono (State.without_changesOnly _ s) (by simp))
        (State.changesOnly_mono (State.resultWritten_changesOnly c _) (by simp))
    · rw [State.resultWritten_of_done active done]
      exact ⟨by rw [State.putCell_cells, vector_set_self], State.putCell_none_marked active⟩
    · rw [State.resultWritten_of_abort active abort, State.putCell_of_active active]
      exact State.requestResult_of_due
        (a := { a with settled := some (.aborted, 0), stage := .unrequested, abortDue := false })
        (vector_set_self ..) rfl answered rfl

end Sys2Proof.Machine
end

section
/-! Writes to the control block (R151, R166 to R168): the whole-cell write of a command, and writes that bring none. -/

namespace Sys2Proof.Machine

/-! ### The row of a command -/

/-- Every command's row is the command of its code, taken from its cell (R202). -/
theorem exec_commandRow (code : Byte) (w : CellWrite) (s : State) :
    exec (commandRow code w) s = cellRow code (State.runCommand code) w s := by
  have coded {k : Nat} (same : code.toNat = k) : code = BitVec.ofNat 8 k := by rw [← same]; simp
  unfold commandRow
  split
  case h_17 => rfl
  all_goals
    next same =>
      obtain rfl := coded same
      rfl

/-! ### The bytes of a whole-cell write (R165, R166, R203) -/

/-- Little-endian bytes hold their number, up to their size. -/
theorem leNat_leBytes (n v : Nat) : leNat (leBytes n v) = v % 256 ^ n := by
  induction n generalizing v with
  | zero => simp [leBytes, leNat, Nat.mod_one]
  | succ n ih =>
    have low : (BitVec.ofNat 8 v).toNat = v % 256 := BitVec.toNat_ofNat ..
    rw [leBytes, leNat, ih, low, Nat.pow_succ', Nat.mod_mul]

theorem ofNat_leNat_leBytes (v : Word) : BitVec.ofNat 32 (leNat (leBytes 4 v.toNat)) = v := by
  rw [leNat_leBytes, Nat.mod_eq_of_lt (Nat.lt_of_lt_of_le v.isLt (by decide))]
  simp

section cellBurst
variable (s : State) (code : Byte) (w : CellWrite)

/-- A cell of the control block lies in the 40-bit space (R165, R199). -/
theorem State.cellBurst_addr :
    (w.burst s.controlBase code).addr.toNat = s.controlBase + 0x400 + 32 * w.cell.val := by
  have small := s.strap.isLt
  have cell := w.cell.isLt
  show (BitVec.ofNat 40 (s.controlBase + 0x400 + 32 * w.cell.val)).toNat = _
  rw [BitVec.toNat_ofNat, State.controlBase]
  omega

theorem State.cellBurst_low : (w.burst s.controlBase code).low = s.controlBase + 0x400 + 32 * w.cell.val :=
  s.cellBurst_addr code w

theorem State.cellBurst_stop : (w.burst s.controlBase code).stop = s.controlBase + 0x400 + 32 * w.cell.val + 32 := by
  show (w.burst s.controlBase code).addr.toNat / 2 ^ 2 * 2 ^ 2 + 8 * 2 ^ 2 = _
  rw [s.cellBurst_addr, State.controlBase]
  omega

theorem State.cellBurst_touchesCell (c : CellId) :
    (w.burst s.controlBase code).touchesCell s.controlBase c = decide (c = w.cell) := by
  have same : c = w.cell ↔ c.val = w.cell.val := Fin.ext_iff
  simp only [Burst.touchesCell, Burst.touches, s.cellBurst_low, s.cellBurst_stop, cellAddress, Config.cells,
    ← Bool.decide_and, same]
  exact decide_eq_decide.2 (by omega)

/-- It covers its own cell whole, and no other (R166). -/
theorem State.cellBurst_coversCell (c : CellId) :
    (w.burst s.controlBase code).coversCell s.controlBase c = decide (c = w.cell) := by
  by_cases same : c = w.cell
  · subst same
    have strobes : ((List.range 32).all fun i =>
        (w.burst s.controlBase code).strobeAt (cellAddress s.controlBase w.cell + i)) = true := by
      simp only [Burst.strobeAt, s.cellBurst_addr, cellAddress, Config.cells, Nat.add_sub_cancel_left]
      rfl
    rw [Burst.coversCell, strobes, s.cellBurst_low, s.cellBurst_stop, cellAddress, Config.cells]
    simp only [le_refl, decide_true, Bool.and_true]
    rfl
  · have apart : c.val ≠ w.cell.val := fun e => same (Fin.ext e)
    have missed : ¬ ((w.burst s.controlBase code).low ≤ cellAddress s.controlBase c ∧
        cellAddress s.controlBase c + 32 ≤ (w.burst s.controlBase code).stop) := by
      rw [s.cellBurst_low, s.cellBurst_stop, cellAddress, Config.cells]
      omega
    rw [decide_eq_false same, Bool.eq_false_iff]
    intro covers
    simp only [Burst.coversCell, Bool.and_eq_true, decide_eq_true_eq] at covers
    exact missed ⟨covers.1.1.2, covers.1.2⟩

theorem State.cellBurst_byteAt (k : Nat) :
    (w.burst s.controlBase code).byteAt (cellAddress s.controlBase w.cell + k) = (w.bytes code).getD k 0 := by
  simp only [Burst.byteAt, s.cellBurst_addr, cellAddress, Config.cells, Nat.add_sub_cancel_left]
  rfl

theorem State.cellBurst_cellWord (i : Nat) (v : Word)
    (bytes : ((List.range 4).map fun k => (w.bytes code).getD (4 * i + k) 0) = leBytes 4 v.toNat) :
    (w.burst s.controlBase code).cellWord s.controlBase w.cell i = v := by
  simp only [Burst.cellWord, Nat.add_assoc, s.cellBurst_byteAt, bytes]
  exact ofNat_leNat_leBytes v

theorem State.cellBurst_cellCode : (w.burst s.controlBase code).cellCode s.controlBase w.cell = code := by
  rw [Burst.cellCode, ← Nat.add_zero (cellAddress s.controlBase w.cell), s.cellBurst_byteAt]
  rfl

/-- The cell receives the words that the write was made of (R203). -/
theorem State.cellBurst_cellWrite : (w.burst s.controlBase code).cellWrite s.controlBase w.cell = w := by
  have w1 := s.cellBurst_cellWord code w 1 w.w1 rfl
  have w2 := s.cellBurst_cellWord code w 2 w.w2 rfl
  have w3 := s.cellBurst_cellWord code w 3 w.w3 rfl
  have w4 := s.cellBurst_cellWord code w 4 w.w4 rfl
  have w5 := s.cellBurst_cellWord code w 5 w.w5 rfl
  have w6 := s.cellBurst_cellWord code w 6 w.w6 rfl
  have w7 := s.cellBurst_cellWord code w 7 w.w7 rfl
  simp only [Burst.cellWrite, w1, w2, w3, w4, w5, w6, w7, s.cellBurst_byteAt]
  rfl

/-- Its page is one of the control block's (R147). -/
theorem State.cellBurst_page : MapEntry.holds ⟨.control, s.controlBase / 4096, Config.controlPages⟩
    ((w.burst s.controlBase code).addr.toNat / 4096) = true := by
  have cell := w.cell.isLt
  have pages : Config.controlPages = 2 := rfl
  have aligned : s.controlBase % 4096 = 0 := by rw [State.controlBase]; omega
  rw [MapEntry.holds, s.cellBurst_addr, pages, Bool.and_eq_true, decide_eq_true_eq, decide_eq_true_eq]
  dsimp only
  omega

/-- The class of a page of the control block (R147, R148). -/
theorem State.classOf_of_controlPage {a : Addr} {s : State}
    (inside : MapEntry.holds ⟨.control, s.controlBase / 4096, Config.controlPages⟩ (a.toNat / 4096) = true) :
    s.classOf a = some .control := by
  rw [State.classOf, State.addressMap_eq,
    List.find?_cons_of_pos (p := fun e : MapEntry => e.holds (a.toNat / 4096)) inside, Option.map_some]

theorem State.cellBurst_classOf : s.classOf (w.burst s.controlBase code).addr = some .control :=
  State.classOf_of_controlPage (s.cellBurst_page code w)

end cellBurst

/-! ### A write of class Control block, cell by cell -/

theorem State.route_of_controlWrite {b : Burst} {s : State} (class_ : s.classOf b.addr = some .control)
    (write : b.write = true) : s.route b = .controlWrite := by
  rw [State.route_eq]
  simp only [class_, write, if_true]

theorem foldl_of_still {α β : Type} {g : β → α → β} {l : List α} (still : ∀ d ∈ l, ∀ s, g s d = s)
    (s : β) : l.foldl g s = s := by
  induction l generalizing s with
  | nil => rfl
  | cons d l ih =>
    rw [List.foldl_cons, still d List.mem_cons_self]
    exact ih (fun e me => still e (List.mem_cons_of_mem _ me)) s

/-- A fold in which one element alone acts is that element's action. -/
theorem foldl_of_one {α β : Type} {g : β → α → β} {a : α} : ∀ {l : List α}, l.Nodup → a ∈ l →
    (∀ d ∈ l, d ≠ a → ∀ s, g s d = s) → ∀ s, l.foldl g s = g s a
  | [], _, m, _, _ => absurd m List.not_mem_nil
  | d :: l, nodup, m, still, s => by
    obtain ⟨fresh, nodup⟩ := List.nodup_cons.1 nodup
    by_cases same : d = a
    · subst same
      have rest (t : β) : l.foldl g t = t :=
        foldl_of_still (fun e me => still e (List.mem_cons_of_mem _ me) fun h => fresh (h ▸ me)) t
      rw [List.foldl_cons, rest]
    · rw [List.foldl_cons, still d List.mem_cons_self same]
      exact foldl_of_one nodup ((List.mem_cons.1 m).resolve_left (Ne.symm same))
        (fun e me => still e (List.mem_cons_of_mem _ me)) s

theorem mem_allCells (c : CellId) : c ∈ allCells := by fin_cases c <;> simp [allCells]

/-- The write of one command, as the cells meet it, is that command taken from its cell (R166, R168). -/
theorem State.controlWrite_of_cellBurst (code : Byte) (w : CellWrite) (s : State) :
    s.controlWrite (w.burst s.controlBase code) =
      s.acceptCommand (w.burst s.controlBase code) w (State.runCommand code) := by
  have whole : wholeCells (w.burst s.controlBase code) s.controlBase = [w.cell] := by
    simp only [wholeCells, s.cellBurst_coversCell]
    generalize w.cell = c
    revert c
    decide
  have offers (c : CellId) (t : State) : t.offerCell s.controlBase (w.burst s.controlBase code) c =
      if c = w.cell then t.commandCell w (State.runCommand code) else t := by
    unfold State.offerCell
    rw [s.cellBurst_coversCell, s.cellBurst_touchesCell]
    by_cases own : c = w.cell
    · subst own
      simp only [decide_true, if_true, s.cellBurst_cellWrite, s.cellBurst_cellCode]
    · simp only [own, decide_false, Bool.false_eq_true, if_false]
  unfold State.controlWrite State.acceptCommand
  dsimp only
  rw [foldl_of_one (a := w.cell) (by decide) (mem_allCells _) fun d _ other t => by rw [offers, if_neg other], offers,
    if_pos rfl, whole]
  cases active : s.cells[w.cell] <;> simp only [active, List.filter] <;> rfl

/-- A whole-cell write goes from the Path Router to its cell (R148, R151, R166). -/
theorem State.dispatch_of_cellBurst {code : Byte} {w : CellWrite} {s : State} {b : Burst}
    (burst : b = w.burst s.controlBase code) : s.dispatch b = s.acceptCommand b w (State.runCommand code) := by
  subst burst
  rw [State.dispatch_of_controlWrite (State.route_of_controlWrite (s.cellBurst_classOf code w) rfl),
    State.controlWrite_of_cellBurst]

/-- The row of a command is the write that brings it (R166, R203). -/
theorem exec_commandRow_eq (code : Byte) (w : CellWrite) (s : State) :
    exec (commandRow code w) s = exec (.controlBlockWrite (w.burst s.controlBase code)) s := by
  have presented (b : Burst) (burst : b = w.burst s.controlBase code) :
      (if s.admits b then (s.putHeld b none).acceptCommand b w (State.runCommand code) else s.hold b) =
        s.presentBurst b := by
    rw [State.presentBurst, State.dispatch_of_cellBurst (code := code) (w := w)
      (burst.trans (by rw [State.controlBase, State.controlBase, State.putHeld_strap]))]
  have row (b : Burst) : exec (.controlBlockWrite b) s = s.unlessReset fun s => .next (s.presentBurst b) := rfl
  rw [exec_commandRow, row, cellRow]
  generalize burst : w.burst s.controlBase code = b
  unfold State.unlessReset
  split
  · rfl
  · show Host.Outcome.next (s.hostCommand code (State.runCommand code) w) = .next (s.presentBurst b)
    rw [← presented b burst.symm, State.hostCommand, burst]

/-! ### The acceptance of a write to the control block (R150, R151) -/

/-- A write to the control block as the part keeps it: the cells whose command it brings, and those it overruns. -/
structure WriteEntry where
  serial : Nat
  burst : Burst
  taken : List CellId
  overruns : List CellId

/-- The state with one more write accepted and forwarded. -/
def State.withWrite (x : WriteEntry) (s : State) : State :=
  { s with
    writes := s.writes ++ [⟨x.serial, x.burst.id, none⟩]
    nextSerial := x.serial + 1
    class2 := s.class2 ++ [⟨x.serial, x.burst, .control, x.taken, x.overruns⟩] }

theorem State.forward_of_write {b : Burst} {s : State} (write : b.write = true) (taken overruns : List CellId) :
    s.forward b b .control taken overruns = s.withWrite ⟨s.nextSerial, b, taken, overruns⟩ := by
  unfold State.forward State.openBurst
  rw [if_pos write]
  rfl

theorem State.withWrite_quietly {s : State} (holds : s.noticeHolds) (x : WriteEntry) :
    s.quietly [.class2, .writes, .serial] [] (s.withWrite x) :=
  State.quietly_of_eq [] holds
    (fun p named => by cases p <;> simp_all [State.same, State.ref, State.withWrite]) rfl rfl rfl rfl rfl

/-- What a write leaves that sets device conditions besides. -/
theorem State.quietly_after_withWrite {s t : State} {x : WriteEntry} (holds : s.noticeHolds)
    (quiet : (s.withWrite x).quietly [.deviceWord] [] t) :
    t.noticeHolds ∧ s.changesOnly [.deviceWord, .class2, .class3, .writes, .serial] t ∧ s.onlyMarks [] t := by
  obtain ⟨only, marks, holds'⟩ := State.quietly_trans
    (State.quietly_mono (State.withWrite_quietly holds x) (qs := [.deviceWord, .class2, .writes, .serial])
      (by simp) (List.Subset.refl _))
    (State.quietly_mono quiet (by simp) (List.Subset.refl _))
  exact ⟨holds', State.changesOnly_mono only (by simp), marks⟩

/-! ### A write that brings no command (R167, R168) -/

theorem State.offerCell_of_bare {b : Burst} {base : Nat} {c : CellId} (bare : b.coversCell base c = false)
    (s : State) : s.offerCell base b c = if b.touchesCell base c then s.setDevice commandForm else s := by
  rw [State.offerCell, bare, if_neg Bool.false_ne_true]

/-- The cells that a write touches without covering one whole set COMMAND_FORM (R167). -/
theorem State.offerCells_of_bare {b : Burst} {base : Nat} (bare : ∀ c, b.coversCell base c = false)
    (l : List CellId) {s : State} (holds : s.noticeHolds) :
    s.quietly [.deviceWord] [] (l.foldl (fun s c => s.offerCell base b c) s) ∧
      (l.foldl (fun s c => s.offerCell base b c) s).deviceWord =
        s.deviceWord ||| (if ∃ c ∈ l, b.touchesCell base c = true then commandForm else 0) := by
  induction l generalizing s with
  | nil => exact ⟨State.quietly_refl _ _ holds, by simp⟩
  | cons c l ih =>
    rw [List.foldl_cons, State.offerCell_of_bare (bare c)]
    by_cases touched : b.touchesCell base c = true
    · obtain ⟨quiet, word⟩ := ih (s.setDevice_quietly commandForm).2.2
      rw [if_pos touched, if_pos ⟨c, List.mem_cons_self, touched⟩, word,
        State.setDevice_deviceWord holds (by decide), BitVec.or_assoc]
      refine ⟨State.quietly_trans (s.setDevice_quietly commandForm) quiet, congrArg _ ?_⟩
      split <;> decide
    · obtain ⟨quiet, word⟩ := ih holds
      rw [if_neg touched, word]
      simp [quiet, touched]

/-- Settles O21: the forwarded write, and then the one condition that its cells set. -/
theorem writesThatTakeNoCommand : Obligations.WritesThatTakeNoCommand := by
  refine ⟨fun b i s row room holds write class_ bare => ?_, fun code w s room holds busy => ?_⟩
  · have row : i ∈ burstRows b := by
      rcases List.mem_pair.1 row with rfl | rfl <;> simp [burstRows]
    have whole : wholeCells b s.controlBase = [] := by simp [wholeCells, bare]
    have goes : s.dispatch b = allCells.foldl (fun s' c => s'.offerCell s.controlBase b c)
        (s.withWrite ⟨s.nextSerial, b, [], []⟩) := by
      rw [State.dispatch_of_controlWrite (State.route_of_controlWrite class_ write), State.controlWrite,
        whole, State.forward_of_write write]
      rfl
    obtain ⟨quiet, word⟩ := State.offerCells_of_bare bare allCells
      (State.withWrite_quietly holds ⟨s.nextSerial, b, [], []⟩).2.2
    rw [exec_of_open row room, goes]
    refine ⟨_, rfl, quiet.1 .class2 (by simp), quiet.1 .writes (by simp), ?_,
      State.quietly_after_withWrite holds quiet⟩
    rw [word]
    simp only [mem_allCells, true_and]
    rfl
  · obtain ⟨a, active⟩ := Option.ne_none_iff_exists'.1 busy
    have row : Instr.commandOverrun (w.burst s.controlBase code) ∈ burstRows (w.burst s.controlBase code) := by
      simp [burstRows]
    have quiet := State.setDevice_quietly commandOverrun
      (s.withWrite ⟨s.nextSerial, w.burst s.controlBase code, [], [w.cell]⟩)
    have goes : s.dispatch (w.burst s.controlBase code) =
        (s.withWrite ⟨s.nextSerial, w.burst s.controlBase code, [], [w.cell]⟩).setDevice commandOverrun := by
      rw [State.dispatch_of_cellBurst rfl, State.acceptCommand, State.forward_of_write rfl, active]
      exact if_pos (congrArg Option.isSome active)
    rw [exec_of_open row room, goes]
    refine ⟨_, rfl, quiet.1 .class2 (by simp), quiet.1 .writes (by simp),
      State.setDevice_deviceWord (State.withWrite_quietly holds _).2.2 (by decide),
      State.quietly_after_withWrite holds quiet⟩

end Sys2Proof.Machine
end

section
/-! What the commands of a control block write do not see: the accepted write that brings them (R151, R168). -/

namespace Sys2Proof.Machine

/-! ### Operations that neither see nor touch the last accepted write -/

/-- What the Bus Port needs to take one more write: reset, the straps, the held write, the serial numbers and the
number of accepted writes; with them the notice line (R157, R192). -/
structure State.KeepsPort (s t : State) : Prop where
  resetting : t.resetting = s.resetting
  strap : t.strap = s.strap
  heldWrite : t.heldWrite = s.heldWrite
  serial : t.nextSerial = s.nextSerial
  writes : t.writes.length ≤ s.writes.length
  notice : s.noticeHolds → t.noticeHolds

theorem State.KeepsPort.refl (s : State) : s.KeepsPort s := ⟨rfl, rfl, rfl, rfl, le_rfl, id⟩

theorem State.KeepsPort.trans {s t u : State} (h : s.KeepsPort t) (k : t.KeepsPort u) : s.KeepsPort u where
  resetting := k.resetting.trans h.resetting
  strap := k.strap.trans h.strap
  heldWrite := k.heldWrite.trans h.heldWrite
  serial := k.serial.trans h.serial
  writes := k.writes.trans h.writes
  notice := k.notice ∘ h.notice

/-- An operation that does the same whether or not one more control block write is accepted and forwarded. -/
structure PortBlind (g : State → State) : Prop where
  keeps : ∀ s : State, s.KeepsPort (g s)
  commutes : ∀ (x : WriteEntry) (s : State), g (s.withWrite x) = (g s).withWrite x

namespace PortBlind
variable {g h : State → State}

theorem refl : PortBlind fun s => s := ⟨State.KeepsPort.refl, fun _ _ => rfl⟩

theorem comp (first : PortBlind g) (then_ : PortBlind h) : PortBlind fun s => h (g s) where
  keeps s := (first.keeps s).trans (then_.keeps (g s))
  commutes x s := by rw [first.commutes, then_.commutes]

theorem foldl {α : Type} {f : State → α → State} (each : ∀ a, PortBlind fun s => f s a) :
    ∀ l : List α, PortBlind fun s => l.foldl f s
  | [] => refl
  | a :: l => (each a).comp (foldl each l)

/-- A part of the state that the write is not, read first. -/
theorem reading {α : Type} (view : State → α) {k : α → State → State} (each : ∀ a, PortBlind (k a))
    (same : ∀ (x : WriteEntry) (s : State), view (s.withWrite x) = view s := by intros; rfl) :
    PortBlind fun s => k (view s) s where
  keeps s := (each (view s)).keeps s
  commutes x s := by rw [same, (each (view s)).commutes]

theorem ite (p : State → Prop) [∀ s, Decidable (p s)] (yes : PortBlind g) (no : PortBlind h)
    (same : ∀ (x : WriteEntry) (s : State), p (s.withWrite x) ↔ p s := by intros; exact Iff.rfl) :
    PortBlind fun s => if p s then g s else h s where
  keeps s := by split; exacts [yes.keeps s, no.keeps s]
  commutes x s := by simp only [same, yes.commutes, no.commutes]; split <;> rfl

/-- A write of pieces that are neither the write's nor the notice line's. -/
theorem raw (commutes : ∀ (x : WriteEntry) (s : State), g (s.withWrite x) = (g s).withWrite x := by intros; rfl)
    (resetting : ∀ s, (g s).resetting = s.resetting := by intros; rfl)
    (strap : ∀ s, (g s).strap = s.strap := by intros; rfl)
    (heldWrite : ∀ s, (g s).heldWrite = s.heldWrite := by intros; rfl)
    (serial : ∀ s, (g s).nextSerial = s.nextSerial := by intros; rfl)
    (writes : ∀ s, (g s).writes = s.writes := by intros; rfl)
    (summaries : ∀ s, (g s).summaries = s.summaries := by intros; rfl)
    (word : ∀ s, (g s).deviceWord = s.deviceWord := by intros; rfl)
    (notice : ∀ s, (g s).notice = s.notice := by intros; rfl)
    (mask : ∀ s, (g s).deviceMask = s.deviceMask := by intros; rfl) : PortBlind g where
  keeps s := ⟨resetting s, strap s, heldWrite s, serial s, (congrArg _ (writes s)).le,
    fun holds => State.noticeHolds_congr holds (summaries s) (word s) (notice s) (mask s)⟩
  commutes := commutes

end PortBlind

/-! ### The shared writers -/

theorem State.mark_portBlind (r : RecordSel) : PortBlind (State.mark r) :=
  .ite (fun s => Housekeeping.record r ∈ s.class3) .refl .raw

theorem State.markAll_portBlind : PortBlind State.markAll := .foldl State.mark_portBlind _

theorem State.putDeviceWord_portBlind (w : Conds) : PortBlind (State.putDeviceWord w) where
  keeps s := ⟨by simp, by simp, by simp, by simp, by simp, fun _ => s.putDeviceWord_noticeHolds w⟩
  commutes x s := by
    unfold State.putDeviceWord
    dsimp only
    rw [apply_ite (State.withWrite x), ← (State.mark_portBlind .device).commutes]
    rfl

theorem State.refresh_portBlind : PortBlind State.refresh :=
  .reading (·.deviceWord) State.putDeviceWord_portBlind

theorem State.setDevice_portBlind (c : Conds) : PortBlind (State.setDevice c) :=
  .reading (·.deviceWord) fun a => State.putDeviceWord_portBlind (a ||| c)

theorem State.putFeed_portBlind (f : FeedId) (y : Feed) : PortBlind (State.putFeed f y) where
  keeps s := ⟨by simp, by simp, by simp, by simp, by simp, fun _ => s.putFeed_noticeHolds f y⟩
  commutes x s := by
    unfold State.putFeed
    dsimp only
    rw [← State.refresh_portBlind.commutes, apply_ite (State.withWrite x),
      ← (State.mark_portBlind (.feed f)).commutes]
    rfl

theorem State.modifyFeed_portBlind (f : FeedId) (g : Feed → Feed) : PortBlind (State.modifyFeed f g) :=
  .reading (·.feeds[f]) fun y => State.putFeed_portBlind f (g y)

theorem State.putOutput_portBlind (o : OutId) (y : Output) : PortBlind (State.putOutput o y) where
  keeps s := ⟨by simp, by simp, by simp, by simp, by simp, fun _ => s.putOutput_noticeHolds o y⟩
  commutes x s := by
    unfold State.putOutput
    dsimp only
    rw [← State.refresh_portBlind.commutes, apply_ite (State.withWrite x),
      ← (State.mark_portBlind (.output o)).commutes]
    rfl

theorem State.modifyOutput_portBlind (o : OutId) (g : Output → Output) : PortBlind (State.modifyOutput o g) :=
  .reading (·.outputs[o]) fun y => State.putOutput_portBlind o (g y)

theorem State.modifyModes_portBlind (o : OutId) (g : Modes → Modes) : PortBlind (State.modifyModes o g) :=
  State.modifyOutput_portBlind o fun y => { y with modes := g y.modes }

theorem State.modifyContexts_portBlind (o : OutId) (g : Contexts → Contexts) : PortBlind (State.modifyContexts o g) :=
  State.modifyOutput_portBlind o fun y => { y with ctx := g y.ctx }

theorem State.modifyBuilder_portBlind (o : OutId) (g : LineBuilder → LineBuilder) :
    PortBlind (State.modifyBuilder o g) := State.modifyOutput_portBlind o fun y => { y with builder := g y.builder }

theorem State.putCell_portBlind (c : CellId) (y : Cell) : PortBlind (State.putCell c y) :=
  .ite (fun s => y.isSome = s.cells[c].isSome) .raw
    (.comp (g := fun s => { s with cells := s.cells.set c y }) .raw (State.mark_portBlind .device))

/-- A request joins class 3 (R161). -/
theorem State.queue3_portBlind (h : Housekeeping) : PortBlind fun s => { s with class3 := s.class3 ++ [h] } := .raw

theorem State.requestResult_portBlind (c : CellId) : PortBlind (State.requestResult c) := by
  refine .reading (·.cells[c]) (k := fun y s => match y with
    | none => s
    | some a =>
      match a.settled, a.hostAnswered, a.stage with
      | some r, true, .unrequested =>
        let s1 := s.putCell c (some { a with stage := .waiting })
        { s1 with class3 := s1.class3 ++ [.result c (resultWord r.1 a.tag r.2)] }
      | _, _, _ => s) fun
    | none => .refl
    | some ⟨tag, settled, answered, stage, identify, due⟩ => ?_
  cases settled <;> cases answered <;> cases stage
  case some.true.unrequested r =>
    exact (State.putCell_portBlind c _).comp (State.queue3_portBlind (.result c (resultWord r.1 tag r.2)))
  all_goals exact .refl

theorem State.settle_portBlind (c : CellId) (r : ResultCode) (d : Byte) : PortBlind (State.settle c r d) :=
  .reading (·.cells[c]) (k := fun y s => match y with
    | none => s
    | some a => (s.putCell c (some { a with settled := some (r, d) })).requestResult c) fun
    | none => .refl
    | some _ => (State.putCell_portBlind c _).comp (State.requestResult_portBlind c)

theorem State.notify_portBlind (p : CacheKey → Bool) : PortBlind (State.notify p) := .raw

theorem State.request1_portBlind (o : OutId) (fs : List Fetch) : PortBlind (State.request1 o fs) := .raw

/-- Answers go up without the write, which has none yet (R158). -/
theorem State.flush_portBlind : PortBlind State.flush where
  keeps s := ⟨rfl, rfl, rfl, rfl, (sendWrites_sublist _ _).length_le,
    fun holds => State.noticeHolds_congr holds rfl rfl rfl rfl⟩
  commutes x s := by
    have waits : sendWrites [] (s.writes ++ [⟨x.serial, x.burst.id, none⟩]) =
        ((sendWrites [] s.writes).1 ++ [⟨x.serial, x.burst.id, none⟩], (sendWrites [] s.writes).2) := by
      simp only [sendWrites_eq]
      exact sendInOrder_append_of_waiting _ _ (.inl rfl)
    unfold State.flush
    dsimp only [State.withWrite]
    rw [waits]

/-! ### Feeds, contexts and builds -/

theorem State.changePin_portBlind (g : Nat → Nat) (r : RecordRef) : PortBlind (State.changePin g r) :=
  State.modifyFeed_portBlind r.feed fun x => { x with history := changePins g r.number x.history }

theorem State.unpin_portBlind (x : Context) : PortBlind (State.unpin x) :=
  .foldl (fun r => State.changePin_portBlind _ r) _

theorem State.feedEvent_portBlind (f : FeedId) (e : FeedEvent) : PortBlind (State.feedEvent f e) := by
  refine .foldl (fun o => ?_) allOutputs
  exact .ite (fun s => (s.outputs[o].boundTo f && s.outputs[o].live) = true)
    (State.modifyModes_portBlind o (Modes.feedEvent e)) .refl

theorem State.retire_portBlind (o : OutId) (x : Context) : PortBlind (State.retire o x) :=
  (State.modifyBuilder_portBlind o (LineBuilder.invalidateFor x.id)).comp
    (.ite (fun _ => x.uses = 0) (State.unpin_portBlind x)
      (State.modifyContexts_portBlind o fun c => { c with retired := some x }))

theorem State.dropHeld_portBlind (o : OutId) (p : Parity) : PortBlind (State.dropHeld o p) :=
  .reading (·.outputs[o].ctx.held p) (k := fun y s => match y with
    | none => s
    | some x => (s.modifyContexts o fun c => c.setHeld p none).retire o x) fun
    | none => .refl
    | some x => (State.modifyContexts_portBlind o _).comp (State.retire_portBlind o x)

theorem State.dropFrozen_portBlind (o : OutId) : PortBlind (State.dropFrozen o) :=
  .reading (·.outputs[o].ctx.frozen) (k := fun y s => match y with
    | none => s
    | some x => (s.unpin x).modifyContexts o fun c => { c with frozen := none }) fun
    | none => .refl
    | some x => (State.unpin_portBlind x).comp (State.modifyContexts_portBlind o _)

theorem State.giveUpContexts_portBlind (o : OutId) : PortBlind (State.giveUpContexts o) :=
  ((((State.dropHeld_portBlind o .whole).comp (State.dropHeld_portBlind o .top)).comp
    (State.dropHeld_portBlind o .bottom)).comp (State.dropFrozen_portBlind o)).comp
      (State.modifyContexts_portBlind o fun c => { c with decision := none })

/-! ### The head beat (R109 to R111, R115) -/

/-- The lookups of a build find the same with and without the write. -/
structure LookupBlind (g : State → State × List (CacheKey × EntryId)) : Prop where
  keeps : ∀ s : State, s.KeepsPort (g s).1
  commutes : ∀ (x : WriteEntry) (s : State), g (s.withWrite x) = ((g s).1.withWrite x, (g s).2)

theorem LookupBlind.then_ {g : State → State × List (CacheKey × EntryId)}
    {k : List (CacheKey × EntryId) → State → State} (found : LookupBlind g) (each : ∀ l, PortBlind (k l)) :
    PortBlind fun s => k (g s).2 (g s).1 where
  keeps s := (found.keeps s).trans ((each _).keeps _)
  commutes x s := by rw [found.commutes, (each _).commutes]

theorem State.setCache_portBlind (c : Cache) : PortBlind fun s => { s with cache := c } := .raw

theorem State.lookup_blind (o : OutId) (b : Build) (k : CacheKey) : LookupBlind (State.lookup o b k) where
  keeps s := by
    unfold State.lookup
    split
    · exact (State.setCache_portBlind _).keeps s
    · exact ((State.setCache_portBlind _).comp (State.request1_portBlind o _)).keeps s
    · exact .refl s
  commutes x s := by
    have look : (s.withWrite x).cache.look k = s.cache.look k := rfl
    unfold State.lookup
    rw [look]
    split <;> rfl

theorem State.lookupAll_blind (o : OutId) (b : Build) : ∀ ks, LookupBlind (State.lookupAll o b ks)
  | [] => ⟨.refl, fun _ _ => rfl⟩
  | k :: ks =>
    have first := State.lookup_blind o b k
    have rest := State.lookupAll_blind o b ks
    { keeps := fun s => (first.keeps s).trans (rest.keeps _)
      commutes := fun x s => by simp only [State.lookupAll, first.commutes, rest.commutes] }

/-- A build started: its lookups, and the output with the build and its hold on the context (R115). -/
theorem State.beginBuild_portBlind (o : OutId) (b : Build) (g : List (CacheKey × EntryId) → Output → Output) :
    PortBlind fun s => (s.lookupAll o b b.firstKeys).1.modifyOutput o (g (s.lookupAll o b b.firstKeys).2) :=
  (State.lookupAll_blind o b _).then_ fun l => State.modifyOutput_portBlind o (g l)

theorem State.startBuild_portBlind (o : OutId) (y : Nat) : PortBlind (State.startBuild o y) := by
  refine .reading (fun s => (s.outputs[o], s.feeds, s.newBuild y)) (k := fun v s =>
    match v.1.config with
    | none => s
    | some c =>
      match v.1.ctx.held (c.lineParity y), v.2.1[c.feed].config with
      | some x, some fc =>
        match x.a, x.b with
        | some ra, some rb =>
          let i := v.1.builder.chooseBuffer
          let b := v.2.2 x ra rb i c fc v.1.modes.fill
          let r := s.lookupAll o b b.firstKeys
          r.1.modifyOutput o fun out =>
            { out with
              ctx := out.ctx.changeHeld (c.lineParity y) fun x => { x with uses := x.uses + 1 }
              builder :=
                { (out.builder.putBuffer i (newBuffer y x.id)) with build := some { b with holds := r.2 } } }
        | _, _ => s
      | _, _ => s) fun ⟨out, feeds, build⟩ => ?_
  dsimp only
  cases out.config with
  | none => exact .refl
  | some c =>
    dsimp only
    cases out.ctx.held (c.lineParity y) with
    | none => exact .refl
    | some x =>
      cases feeds[c.feed].config with
      | none => exact .refl
      | some fc =>
        dsimp only
        cases x.a with
        | none => exact .refl
        | some ra =>
          cases x.b with
          | none => exact .refl
          | some rb =>
            exact State.beginBuild_portBlind o (build x ra rb out.builder.chooseBuffer c fc out.modes.fill)
              fun l out' =>
                { out' with
                  ctx := out'.ctx.changeHeld (c.lineParity y) fun x => { x with uses := x.uses + 1 }
                  builder :=
                    { (out'.builder.putBuffer out.builder.chooseBuffer (newBuffer y x.id)) with
                      build := some
                        { build x ra rb out.builder.chooseBuffer c fc out.modes.fill with holds := l } } }

theorem State.answerBeat_portBlind (n : Nat) (bytes : List Byte) (last : Bool) :
    PortBlind (State.answerBeat n bytes last) := .raw

theorem State.answerHead_portBlind (o : OutId) (bytes : List Byte) (touched : Option (Fin 2)) :
    PortBlind (State.answerHead o bytes touched) :=
  .reading (·.outputs[o].builder.queue) (k := fun l s => match l with
    | [] => s
    | q :: qs =>
      let last : Bool := q.len ≤ q.done + 1
      (s.answerBeat q.serial bytes last).modifyBuilder o fun lb =>
        { lb with
          queue := if last then qs else { q with done := q.done + 1 } :: qs
          lastTouched := touched.or lb.lastTouched }) fun
    | [] => .refl
    | q :: _ => (State.answerBeat_portBlind q.serial bytes _).comp (State.modifyBuilder_portBlind o _)

/-- A control block write is in no slate page's list (R153). -/
theorem State.slateWritten_withWrite (page : Nat) (x : WriteEntry) (s : State) :
    (s.withWrite x).slateWritten page = s.slateWritten page := by
  simp [State.slateWritten, State.withWrite, Forwarded.writesSlate]

theorem State.offerSlate_portBlind (w : WaitingSlate) : PortBlind (State.offerSlate w) :=
  .ite (fun s => s.slateWritten (w.addr.toNat / 4096) = true)
    (g := fun s => { s with waitingSlate := s.waitingSlate ++ [w] }) .raw
    (State.request1_portBlind w.output [.slate w.index w.addr w.len])
    (fun x s => by rw [State.slateWritten_withWrite])

theorem State.startRun_portBlind (o : OutId) (page : Page) : PortBlind (State.startRun o page) := by
  refine .reading (fun s => (s.outputs[o].config, s.outputs[o].builder.queue)) (k := fun p s => match p.1, p.2 with
    | some c, q :: _ =>
      (c.slateRun q).reads.zipIdx.foldl (fun s p =>
        s.offerSlate ⟨o, p.2, BitVec.ofNat 40 (page.toNat * 4096 + p.1.offset), p.1.len⟩)
        (s.modifyBuilder o fun lb => { lb with run := some (c.slateRun q) })
    | _, _ => s) fun
    | (some c, q :: _) => ?_
    | (some _, []) => .refl
    | (none, _) => .refl
  exact (State.modifyBuilder_portBlind o fun lb => { lb with run := some (c.slateRun q) }).comp
    (.foldl (fun p => State.offerSlate_portBlind _) _)

theorem State.serve_portBlind (o : OutId) : ∀ n, PortBlind (State.serve n o)
  | 0 => .refl
  | n + 1 => by
    refine .reading (·.outputs[o]) (k := fun out s => match out.builder.queue with
      | [] => s
      | q :: _ =>
        if out.builder.run.isSome then s
        else match out.headCase q with
          | .answer bytes touched => State.serve n o (s.answerHead o bytes touched)
          | .wait => s
          | .build y => s.startBuild o y
          | .slate page => s.startRun o page) fun out => ?_
    cases out.builder.queue with
    | nil => exact .refl
    | cons q qs =>
      refine .ite (fun _ => out.builder.run.isSome = true) .refl ?_
      cases out.headCase q with
      | answer bytes touched => exact (State.answerHead_portBlind o bytes touched).comp (State.serve_portBlind o n)
      | wait => exact .refl
      | build y => exact State.startBuild_portBlind o y
      | slate page => exact State.startRun_portBlind o page

theorem State.takeHead_portBlind (o : OutId) : PortBlind (State.takeHead o) :=
  .reading (·.outputs[o].builder.queue) fun l => State.serve_portBlind o (beatsLeft l + 1)

theorem State.blackOut_portBlind (o : OutId) : PortBlind (State.blackOut o) := by
  refine .reading (fun s => (s.outputs[o].config, s.outputs[o].builder.queue)) (k := fun p s => match p.1 with
    | none => s
    | some c => p.2.foldl (fun s q =>
      { s with
        reads := s.reads.map fun t =>
          if t.serial = q.serial then { t with beats := t.beats ++ c.blackBeats q, ready := true }
          else t }) s) fun
    | (none, _) => .refl
    | (some c, l) => .foldl (fun q => .raw) l

/-! ### The commands (R172 to R187) -/

theorem State.judge_portBlind {act : State → State} (c : CellId) (refusal : State → Refused) (acts : PortBlind act)
    (same : ∀ (x : WriteEntry) (s : State), refusal (s.withWrite x) = refusal s := by intros; rfl) :
    PortBlind fun s => s.judge c (refusal s) act :=
  .reading refusal (same := same) (k := fun r s => s.judge c r act) fun
    | none => acts.comp (State.settle_portBlind c .done 0)
    | some r => State.settle_portBlind c r.1 r.2

theorem State.onQuad_portBlind {act : Fin 4 → State → State} (w : CellWrite) (acts : ∀ t, PortBlind (act t)) :
    PortBlind fun s => s.onQuad w act := by
  unfold State.onQuad
  cases targetQuad w with
  | none => exact State.settle_portBlind w.cell .badField 0
  | some t => exact acts t

theorem State.configureFeed_portBlind (w : CellWrite) : PortBlind (State.configureFeed w) :=
  State.onQuad_portBlind w fun f => State.judge_portBlind w.cell (State.refuseConfigureFeed f w)
    ((State.modifyFeed_portBlind f _).comp (State.mark_portBlind (.feed f)))

theorem State.startFeed_portBlind (f : FeedId) (c : FeedConfig) : PortBlind (State.startFeed f c) :=
  (State.modifyFeed_portBlind f fun x => { x with phase := .awaiting, cadence := x.cadence.enabled c }).comp
    (State.feedEvent_portBlind f (.seeking false))

theorem State.enableFeed_portBlind (w : CellWrite) : PortBlind (State.enableFeed w) := by
  refine State.onQuad_portBlind w fun f => ?_
  exact .reading (·.feeds[f].config) (k := fun y s => match y with
    | none => s.settle w.cell .wrongState 0
    | some c => s.judge w.cell (need (s.feeds[f].cadence.state = .disabled) .wrongState)
        fun s => (s.startFeed f c).mark (.feed f)) fun
    | none => State.settle_portBlind w.cell .wrongState 0
    | some c => State.judge_portBlind w.cell (fun s => need (s.feeds[f].cadence.state = .disabled) .wrongState)
        ((State.startFeed_portBlind f c).comp (State.mark_portBlind (.feed f)))

theorem State.endFeed_portBlind (f : FeedId) : PortBlind (State.endFeed f) :=
  (State.modifyFeed_portBlind f fun x =>
    let y := x.disabledIngest
    { y with cadence := y.cadence.disabled }).comp (State.notify_portBlind (feedNotice f))

theorem State.disableFeed_portBlind (w : CellWrite) : PortBlind (State.disableFeed w) :=
  State.onQuad_portBlind w fun f => State.judge_portBlind w.cell
    (fun s => firstRefusal [need (s.feeds[f].cadence.state ≠ .disabled) .wrongState, need (!s.feedInUse f) .inUse])
    ((State.endFeed_portBlind f).comp (State.mark_portBlind (.feed f)))

theorem State.rearmMonitor_portBlind (w : CellWrite) : PortBlind (State.rearmMonitor w) :=
  State.onQuad_portBlind w fun f => State.judge_portBlind w.cell
    (fun s => firstRefusal [need s.feeds[f].config.isSome .wrongState,
      badParam (firstBad [(1, 1 ≤ field w.w1 0 8)])])
    ((State.modifyFeed_portBlind f _).comp (State.mark_portBlind (.feed f)))

theorem State.configureOutput_portBlind (w : CellWrite) : PortBlind (State.configureOutput w) :=
  State.onQuad_portBlind w fun o => State.judge_portBlind w.cell (State.refuseConfigureOutput o w)
    (((State.dropFrozen_portBlind o).comp (State.modifyOutput_portBlind o _)).comp (State.mark_portBlind (.output o)))

theorem State.beginStarting_portBlind (o : OutId) (c : OutputConfig) : PortBlind (State.beginStarting o c) :=
  .reading (·.feeds[c.feed].cadence.state) fun v =>
    State.modifyOutput_portBlind o fun x => { x with state := .starting, modes := x.modes.started v }

theorem State.startOutput_portBlind (w : CellWrite) : PortBlind (State.startOutput w) := by
  refine State.onQuad_portBlind w fun o => ?_
  exact .reading (·.outputs[o].config) (k := fun y s => match y with
    | none => s.settle w.cell .wrongState 0
    | some c => s.judge w.cell
        (firstRefusal [need (s.outputs[o].state = .stopped) .wrongState,
          need s.banks[c.bank].loading.isNone .inUse, need (s.geometryHolds c) .geometry])
        (State.beginStarting o c)) fun
    | none => State.settle_portBlind w.cell .wrongState 0
    | some c => State.judge_portBlind w.cell
        (fun s => firstRefusal [need (s.outputs[o].state = .stopped) .wrongState,
          need s.banks[c.bank].loading.isNone .inUse, need (s.geometryHolds c) .geometry])
        (State.beginStarting_portBlind o c)

theorem State.stopRunning_portBlind (o : OutId) : PortBlind (State.stopRunning o) := by
  have stopped := State.modifyOutput_portBlind o fun x =>
    { x with state := .stopped, gen := Generator.idle, modes := x.modes.stopped }
  have emptied := (stopped.comp (State.giveUpContexts_portBlind o)).comp
    (State.modifyBuilder_portBlind o LineBuilder.invalidateAll)
  have answered := (emptied.comp (State.takeHead_portBlind o)).comp State.flush_portBlind
  exact answered

theorem State.stopOutput_portBlind (w : CellWrite) : PortBlind (State.stopOutput w) :=
  State.onQuad_portBlind w fun o => State.judge_portBlind w.cell (fun s => need s.outputs[o].live .wrongState)
    (.ite (fun s => s.outputs[o].state = .running) (State.stopRunning_portBlind o)
      (State.modifyOutput_portBlind o fun x => { x with state := .stopped, modes := x.modes.stopped }))

/-- The commands that change an output's modes and mark it (R179 to R182). -/
theorem State.modesCommand_portBlind (o : OutId) (g : Modes → Modes) :
    PortBlind fun s => (s.modifyModes o g).mark (.output o) :=
  (State.modifyModes_portBlind o g).comp (State.mark_portBlind (.output o))

theorem State.setResponse_portBlind (w : CellWrite) : PortBlind (State.setResponse w) :=
  State.onQuad_portBlind w fun o => State.judge_portBlind w.cell
    (fun s => firstRefusal [need s.outputs[o].isConfigured .wrongState, badParam (responseParamBad w)])
    (State.modesCommand_portBlind o _)

theorem State.setSlate_portBlind (w : CellWrite) : PortBlind (State.setSlate w) :=
  State.onQuad_portBlind w fun o => State.judge_portBlind w.cell
    (fun s => firstRefusal [need s.outputs[o].isConfigured .wrongState, badParam (slateParamBad w),
      s.slateOverlap o (slatePageOf w)])
    (State.modesCommand_portBlind o _)

theorem State.forceMode_portBlind (w : CellWrite) : PortBlind (State.forceMode w) :=
  State.onQuad_portBlind w fun o => State.judge_portBlind w.cell
    (fun s => firstRefusal [need s.outputs[o].live .wrongState, badParam (firstBad [(1, (forcedMode w).isSome)])])
    (State.modesCommand_portBlind o _)

theorem State.releaseMode_portBlind (w : CellWrite) : PortBlind (State.releaseMode w) :=
  State.onQuad_portBlind w fun o => State.judge_portBlind w.cell (fun s => need s.outputs[o].live .wrongState)
    (.reading (State.boundState o) fun v => State.modesCommand_portBlind o (Modes.released v))

theorem State.beginLoad_portBlind (k : BankId) (c : CellId) (page : Page) : PortBlind (State.beginLoad k c page) :=
  .raw

theorem State.loadCoefficients_portBlind (w : CellWrite) : PortBlind (State.loadCoefficients w) := by
  unfold State.loadCoefficients
  cases targetBank w with
  | none => exact State.settle_portBlind w.cell .badField 0
  | some k =>
    exact .reading (fun s => firstRefusal [need (!s.bankInUse k && s.banks[k].loading.isNone) .inUse,
        badParam (firstBad [(1, pageOk w.w1)])]) (k := fun r s => match r with
      | some r => s.settle w.cell r.1 r.2
      | none => s.beginLoad k w.cell (w.w1.setWidth 28)) fun
      | some r => State.settle_portBlind w.cell r.1 r.2
      | none => State.beginLoad_portBlind k w.cell _

/-- A word written, and its conflict (R193). -/
theorem State.conflict_portBlind {g : State → State} (clears : PortBlind g) (conflict : State → Bool)
    (same : ∀ (x : WriteEntry) (s : State), conflict (s.withWrite x) = conflict s := by intros; rfl) :
    PortBlind fun s => if conflict s then (g s).setDevice clearConflict else g s :=
  .ite (fun s => conflict s = true) (clears.comp (State.setDevice_portBlind clearConflict)) clears
    (fun x s => by rw [same])

theorem State.clearWord_portBlind (r : RecordSel) (snapshot mask : Conds) :
    PortBlind (State.clearWord r snapshot mask) := by
  cases r with
  | feed f =>
    exact State.conflict_portBlind
      (State.modifyFeed_portBlind f fun x => { x with word := clearedWord x.word snapshot (mask &&& feedConds) })
      fun s => clearConflicts s.feeds[f].word snapshot (mask &&& feedConds)
  | output o =>
    exact State.conflict_portBlind
      (State.modifyOutput_portBlind o fun x => { x with word := clearedWord x.word snapshot (mask &&& outputConds) })
      fun s => clearConflicts s.outputs[o].word snapshot (mask &&& outputConds)
  | device =>
    exact State.conflict_portBlind
      (.reading (·.deviceWord) fun v => State.putDeviceWord_portBlind (clearedWord v snapshot (mask &&& deviceConds)))
      fun s => clearConflicts s.deviceWord snapshot (mask &&& deviceConds)

theorem State.clearConditions_portBlind (w : CellWrite) : PortBlind (State.clearConditions w) := by
  unfold State.clearConditions
  cases selectorOf (field w.w1 0 8) with
  | none => exact State.settle_portBlind w.cell .badField 1
  | some r => exact (State.clearWord_portBlind r _ _).comp (State.settle_portBlind w.cell .done 0)

/-- The device mask replaced: the device word follows it (R190, R192). -/
theorem State.setDeviceMask_portBlind (mask : Conds) :
    PortBlind fun s => State.refresh { s.mark .device with deviceMask := mask } where
  keeps s := ⟨by simp, by simp, by simp, by simp, by simp, fun _ => State.refresh_noticeHolds _⟩
  commutes x s := by
    rw [← State.refresh_portBlind.commutes, (State.mark_portBlind .device).commutes]
    rfl

theorem State.setMask_portBlind (r : RecordSel) (mask : Conds) : PortBlind (State.setMask r mask) := by
  cases r with
  | feed f =>
    exact (State.mark_portBlind (.feed f)).comp
      (State.modifyFeed_portBlind f fun x => { x with mask := mask &&& feedConds })
  | output o =>
    exact (State.mark_portBlind (.output o)).comp
      (State.modifyOutput_portBlind o fun x => { x with mask := mask &&& outputConds })
  | device => exact State.setDeviceMask_portBlind _

theorem State.setMasks_portBlind (w : CellWrite) : PortBlind (State.setMasks w) := by
  unfold State.setMasks
  cases selectorOf (field w.w1 0 8) with
  | none => exact State.settle_portBlind w.cell .badField 1
  | some r => exact (State.setMask_portBlind r _).comp (State.settle_portBlind w.cell .done 0)

theorem State.identify_portBlind (w : CellWrite) : PortBlind (State.identify w) :=
  .reading (·.cells[w.cell]) (k := fun y s => match y with
    | none => s
    | some a => (s.putCell w.cell (some { a with identify := .waiting })).mark .device) fun
    | none => .refl
    | some _ => (State.putCell_portBlind w.cell _).comp (State.mark_portBlind .device)

/-! ### DEVICE_CLEAR (R187) -/

theorem State.clearBlocks_noticeHolds (s : State) : s.clearBlocks.noticeHolds := by
  have summaries : s.clearBlocks.summaries = 0 := by
    simp [State.summaries, State.clearBlocks, summaryOf, Feed.cleared, Output.cleared, Feed.initial, Output.initial]
  unfold State.noticeHolds
  rw [summaries]
  simp [State.clearBlocks]

theorem State.clearBlocks_portBlind : PortBlind State.clearBlocks where
  keeps s := ⟨rfl, rfl, rfl, rfl, le_rfl, fun _ => s.clearBlocks_noticeHolds⟩
  commutes x s := by
    have requests : (s.withWrite x).clearedRequest = s.clearedRequest := by
      funext h
      cases h <;> rfl
    have queue : (s.withWrite x).class2.map Forwarded.cleared = s.class2.map Forwarded.cleared ++
        [⟨x.serial, x.burst, .control, x.taken, x.overruns⟩] := List.map_append
    unfold State.clearBlocks
    rw [requests, queue]
    rfl

theorem State.abortCells_portBlind (c : CellId) : PortBlind (State.abortCells c) := by
  refine .foldl (fun d => ?_) (allCells.filter (· ≠ c))
  exact .reading (·.cells[d]) (k := fun y s => match y with
    | none => s
    | some a => (s.putCell d (some a.aborted)).requestResult d) fun
    | none => .refl
    | some a => (State.putCell_portBlind d _).comp (State.requestResult_portBlind d)

theorem State.deviceClear_portBlind (w : CellWrite) : PortBlind (State.deviceClear w) := by
  have blacked := PortBlind.foldl State.blackOut_portBlind allOutputs
  have cleared := (blacked.comp State.clearBlocks_portBlind).comp (State.abortCells_portBlind w.cell)
  have answered := ((cleared.comp State.markAll_portBlind).comp (State.settle_portBlind w.cell .done 0)).comp
    State.flush_portBlind
  exact answered

theorem State.runCommand_portBlind (code : Byte) (w : CellWrite) : PortBlind (State.runCommand code w) := by
  unfold State.runCommand
  split
  · exact State.configureFeed_portBlind w
  · exact State.enableFeed_portBlind w
  · exact State.disableFeed_portBlind w
  · exact State.rearmMonitor_portBlind w
  · exact State.configureOutput_portBlind w
  · exact State.startOutput_portBlind w
  · exact State.stopOutput_portBlind w
  · exact State.setResponse_portBlind w
  · exact State.setSlate_portBlind w
  · exact State.forceMode_portBlind w
  · exact State.releaseMode_portBlind w
  · exact State.loadCoefficients_portBlind w
  · exact State.clearConditions_portBlind w
  · exact State.setMasks_portBlind w
  · exact State.identify_portBlind w
  · exact State.deviceClear_portBlind w
  · exact State.settle_portBlind w.cell .unknown 0

theorem State.commandCell_portBlind (code : Byte) (w : CellWrite) :
    PortBlind (State.commandCell w (State.runCommand code)) :=
  .ite (fun s => s.cells[w.cell].isSome = true) (State.setDevice_portBlind commandOverrun)
    ((State.putCell_portBlind w.cell (some (ActiveCommand.fresh w.tag))).comp (State.runCommand_portBlind code w))

/-- What a cell makes of a write offered to it does not see that write (R151, R166 to R168). -/
theorem State.offerCell_portBlind (base : Nat) (b : Burst) (c : CellId) : PortBlind (State.offerCell base b c) :=
  .ite (fun _ => b.coversCell base c = true) (State.commandCell_portBlind (b.cellCode base c) (b.cellWrite base c))
    (.ite (fun _ => b.touchesCell base c = true) (State.setDevice_portBlind commandForm) .refl)

/-! ### A control block write offered to its cells -/

theorem State.withoutWrite_withWrite (x : WriteEntry) (s : State) :
    (s.withWrite x).withoutWrite s.nextSerial = s := by
  simp [State.withoutWrite, State.withWrite]

/-- A command's row on an open Bus Port: the write, and what its cell makes of it (R166, R168). -/
theorem exec_commandRow_of_open {code : Byte} {w : CellWrite} {s : State}
    (room : s.open_ (w.burst s.controlBase code)) :
    ∃ x, exec (commandRow code w) s = .next ((s.commandCell w (State.runCommand code)).withWrite x) := by
  rw [exec_commandRow_eq, exec_of_open (by simp [burstRows]) room, State.dispatch_of_cellBurst rfl,
    State.acceptCommand, State.forward_of_write rfl, (State.commandCell_portBlind code w).commutes]
  exact ⟨_, rfl⟩

/-- Where one write finds a free channel, so does the next after an operation that keeps the port (R157). -/
theorem State.KeepsPort.open_ {s t : State} {b d : Burst} (keeps : s.KeepsPort t) (room : s.open_ b)
    (write : b.write = true) (next : d.write = true) : t.open_ d := by
  unfold State.open_ at *
  rw [if_pos write] at room
  obtain ⟨running, free, place⟩ := room
  rw [if_pos next, keeps.resetting, keeps.heldWrite]
  exact ⟨running, free, keeps.writes.trans_lt place⟩

/-- The state after a write has been offered to the first `n` cells, the write itself left aside. -/
def State.offeredTo (base : Nat) (b : Burst) (s : State) (n : Nat) : State :=
  (allCells.take n).foldl (fun s c => s.offerCell base b c) s

theorem State.offeredTo_succ (base : Nat) (b : Burst) (s : State) (c : CellId) :
    s.offeredTo base b (c.val + 1) = (s.offeredTo base b c.val).offerCell base b c := by
  have next : ∀ c : CellId, allCells.take (c.val + 1) = allCells.take c.val ++ [c] := by decide
  rw [State.offeredTo, next, List.foldl_append]
  rfl

theorem State.offeredTo_portBlind (base : Nat) (b : Burst) (n : Nat) : PortBlind fun s => s.offeredTo base b n :=
  .foldl (State.offerCell_portBlind base b) _

/-- A write to the control block, and what the sixteen cells make of it (R151). -/
theorem State.controlWrite_eq {b : Burst} (write : b.write = true) (s : State) :
    s.controlWrite b = (s.offeredTo s.controlBase b 16).withWrite ⟨s.nextSerial, b,
      allCells.filter (fun c => b.coversCell s.controlBase c && s.cells[c].isNone),
      allCells.filter (fun c => b.coversCell s.controlBase c && s.cells[c].isSome)⟩ := by
  rw [← (State.offeredTo_portBlind _ _ _).commutes, State.controlWrite, State.forward_of_write write]
  simp only [wholeCells, List.filter_filter, Bool.and_comm]
  rfl

/-- Settles O4: the row of a command is its write, and since no cell sees the write that the others receive, that
write offered to the cells in order is their rows one after the other. -/
theorem commandRowIsItsWholeCellWrite : Obligations.CommandRowIsItsWholeCellWrite := by
  refine ⟨exec_commandRow_eq, fun b i base s row room holds write class_ same => ?_⟩
  subst same
  have row : i ∈ burstRows b := by
    simp only [List.mem_cons, List.not_mem_nil, or_false] at row
    rcases row with rfl | rfl | rfl <;> simp [burstRows]
  have keeps (n : Nat) := (State.offeredTo_portBlind s.controlBase b n).keeps s
  refine ⟨s.offeredTo s.controlBase b, rfl, ?_,
    fun c => ⟨fun covers => ?_, fun bare touched => ?_, fun bare missed => ?_⟩⟩
  · rw [exec_of_open row room, State.dispatch_of_controlWrite (State.route_of_controlWrite class_ write),
      State.controlWrite_eq write]
    rfl
  · obtain ⟨x, run⟩ := exec_commandRow_of_open (code := b.cellCode s.controlBase c)
      (w := b.cellWrite s.controlBase c) ((keeps c.val).open_ room write rfl)
    have taken : s.offeredTo s.controlBase b (c.val + 1) = (s.offeredTo s.controlBase b c.val).commandCell
        (b.cellWrite s.controlBase c) (State.runCommand (b.cellCode s.controlBase c)) := by
      rw [State.offeredTo_succ, State.offerCell, if_pos covers]
    rw [← taken] at run
    exact ⟨_, run, by rw [← (keeps (c.val + 1)).serial, State.withoutWrite_withWrite]⟩
  · have formed : s.offeredTo s.controlBase b (c.val + 1) =
        (s.offeredTo s.controlBase b c.val).setDevice commandForm := by
      rw [State.offeredTo_succ, State.offerCell_of_bare bare]
      exact if_pos touched
    have quiet := (s.offeredTo s.controlBase b c.val).setDevice_quietly commandForm
    rw [formed]
    exact ⟨State.setDevice_changesOnly _ _, quiet.2.1, quiet.2.2,
      State.setDevice_deviceWord ((keeps c.val).notice holds) (by decide)⟩
  · rw [State.offeredTo_succ, State.offerCell_of_bare bare]
    exact if_neg (Bool.eq_false_iff.1 missed)

end Sys2Proof.Machine
end
